-- ==== Sys2Proof/Word.lean ====
section
/-!
DEFINITION. The word, byte and tag types, the five colour formats and the two interpolation kinds
(spec/00_scope.md R7, spec/10_state.md R20, spec/30_encoding.md R92, R95).
-/
namespace Sys2Proof

/-- A register or command word: `XLEN = 32` bits (10_state.md R25). -/
abbrev Word := BitVec 32

/-- The only addressable unit of the buffer memories, a `u8` (20_memory.md R60). -/
abbrev Byte := BitVec 8

/-- The value of a FROM or TO field (30_encoding.md R92). -/
abbrev Tag := BitVec 3

/-- The five colour formats; there are exactly these (10_state.md R20). -/
inductive ColorFormat where
  | gray8 | rgb565 | rgb888 | rgba8888 | yuv888
deriving DecidableEq, Repr

/-- The interpolation kinds of the engine, `IK_SET` (30_encoding.md R95; 00_scope.md R6). -/
inductive InterpKind where
  | nearest | bilinear
deriving DecidableEq, Repr

end Sys2Proof
end

