-- ==== Sys2Proof/Config.lean ====
section
/-!
DEFINITION. What an implementation fixes and the free values: the open parameters CAP, Q8 and Resample
(spec/00_scope.md R6, spec/93_implementation_defined.md section 4).
-/
namespace Sys2Proof

/-- Which function the open parameter `Q8 : Rat → u8` is (41_yuv.md R165). `unspecified` is any total
function: nothing is known of it. The other two are the reference instantiations of R166 and R167. -/
inductive Quantiser where
  | unspecified | trunc | round
deriving DecidableEq, Repr

/-- Which function the open parameter `Resample` is (43_geometry.md R208). `unspecified` is any function
that meets the contract; `reference` is the pair of R210 (Nearest) and R211 (Bilinear). -/
inductive Resampler where
  | unspecified | reference
deriving DecidableEq, Repr

/-- The parameters of one engine, fixed for its life (00_scope.md R6, 10_state.md R38). They are carried
beside the state because the step has no other argument; no step changes them. DESIGN CHOICE (log 1),
safe: every statement is for all of them. `engine` is no parameter of the spec: it names the engine's own
free values and nothing else reads it (log 6). `META_BITS = XLEN = 32` is the type `Word`. -/
structure Params where
  /-- `CAP`, the bytes of each of SRC and DST; none is ∞. -/
  cap : Option Word
  q8 : Quantiser
  resample : Resampler
  /-- Which engine this is, among several; no register shows it (60_exceptions.md R280). -/
  engine : Nat := 0
deriving DecidableEq, Repr

/-- A legal parameter set: `CAP` is ∞ or 1 .. 2^32 − 1 (00_scope.md R6). -/
abbrev Params.wf (p : Params) : Prop := p.cap ≠ some 0

/-- The free value of `Q8`: a total function of its argument alone, nothing else (41_yuv.md R165).
DESIGN CHOICE (log 2), safe. -/
opaque Config.q8 : Rat → Byte

/-- The seven arguments of `Resample` (43_geometry.md R208). -/
structure ResampleArgs where
  kind : InterpKind
  /-- Bytes per pixel. -/
  b : Nat
  img : List Byte
  ow : Nat
  oh : Nat
  nw : Nat
  nh : Nat
deriving DecidableEq, Repr

/-- The free value of `Resample`: of the seven arguments and the index of a byte of the result, that byte
(43_geometry.md R208). DESIGN CHOICE (log 3), safe. -/
opaque Config.resampleByte : ResampleArgs → Nat → Byte

/-- The free value of the `n`-th read of a DST byte outside the valid window, of engine number `engine`
(10_state.md R32, 93_implementation_defined.md U7, U8, U10). Each engine has its own: nothing relates the
values of two engine numbers. DESIGN CHOICE (log 6): safe for one run, unsafe where two runs of one engine, or
two engines of one number, are compared. -/
opaque Config.freeByte : (engine : Nat) → (n : Nat) → Byte

end Sys2Proof
end

