-- ==== Sys2Proof/Machine/Fields.lean ====
section
/-!
DEFINITION. The fields of a command word and their meanings (spec/30_encoding.md R90 to R96, R103).
-/
namespace Sys2Proof

/-- The fields of the one command format, least significant first (R90); the last three are the bits that
must be zero: 11, 15:14 and 31:24. -/
structure Fields where
  op  : BitVec 4
  src : Tag
  s   : BitVec 1
  dst : Tag
  ik  : BitVec 2
  ch  : Byte
  z11 : BitVec 1 := 0
  z14 : BitVec 2 := 0
  z24 : Byte := 0
deriving DecidableEq, Repr

/-- The fields of a word, by the bit positions of R90. -/
def fieldsOf (w : Word) : Fields where
  op  := w.extractLsb' 0 4
  src := w.extractLsb' 4 3
  s   := w.extractLsb' 7 1
  dst := w.extractLsb' 8 3
  z11 := w.extractLsb' 11 1
  ik  := w.extractLsb' 12 2
  z14 := w.extractLsb' 14 2
  ch  := w.extractLsb' 16 8
  z24 := w.extractLsb' 24 8

/-- The word of the fields, most significant first as the picture of R90 shows them. -/
def assemble (f : Fields) : Word :=
  f.z24 ++ f.ch ++ f.z14 ++ f.ik ++ f.z11 ++ f.dst ++ f.s ++ f.src ++ f.op

/-- The format a tag names; 5, 6 and 7 name none (R92). -/
def formatOfTag (t : Tag) : Option ColorFormat :=
  if t = 0 then some .gray8
  else if t = 1 then some .rgb565
  else if t = 2 then some .rgb888
  else if t = 3 then some .rgba8888
  else if t = 4 then some .yuv888
  else none

/-- The tag of a format (R92). -/
def tagOfFormat : ColorFormat → Tag
  | .gray8 => 0 | .rgb565 => 1 | .rgb888 => 2 | .rgba8888 => 3 | .yuv888 => 4

/-- The kind an IK field names; 2 and 3 are reserved (R95). -/
def kindOfIk (ik : BitVec 2) : Option InterpKind :=
  if ik = 0 then some .nearest else if ik = 1 then some .bilinear else none

/-- The IK field of a kind (R95). -/
def ikOfKind : InterpKind → BitVec 2
  | .nearest => 0 | .bilinear => 1

/-- OP values (R91). -/
def opCvt : BitVec 4 := 1
def opDisp : BitVec 4 := 2
def opResize : BitVec 4 := 3
def opCrop : BitVec 4 := 4
def opPipe : BitVec 4 := 5

/-- The operations that use the FROM field, the S bit, the TO field, the IK field, the CH field (R93). -/
def usesFrom (op : BitVec 4) : Bool := op == opCvt || op == opResize || op == opCrop
def usesS (op : BitVec 4) : Bool := op == opCvt
def usesTo (op : BitVec 4) : Bool := op == opCvt || op == opDisp || op == opPipe
def usesIk (op : BitVec 4) : Bool := op == opResize || op == opPipe
def usesCh (op : BitVec 4) : Bool := op == opDisp || op == opPipe

/-- The illegal space in one place (R103 (a)): no such operation, a zero bit set, an unused field that is
not 0, or a reserved interpolation kind. -/
def illegalFields (f : Fields) : Bool :=
  f.op == 0 || 6 ≤ f.op.toNat
  || f.z11 != 0 || f.z14 != 0 || f.z24 != 0
  || (!usesFrom f.op && f.src != 0) || (!usesS f.op && f.s != 0) || (!usesTo f.op && f.dst != 0)
  || (!usesIk f.op && f.ik != 0) || (!usesCh f.op && f.ch != 0)
  || (usesIk f.op && 2 ≤ f.ik.toNat)

end Sys2Proof
end

