-- ==== Sys2Proof/Syntax.lean ====
section
/-!
DEFINITION. The command set: one constructor per row of spec/opcode_table.json, in the table's order
(spec/30_encoding.md R99). A row's free fields are its arguments; the row and rule stand beside it.
-/
namespace Sys2Proof

/-- One command of the engine. `src`, `dst`, `target`, `fmt` and `out` are format tags (R92), `ch` is the
channel count (R96), `word` the whole command word. Which argument values are a row's own is WellFormed. -/
inductive Instr where
  /-- `CVT.GRAY8.GRAY8`, R123. -/
  | cvtGray8Gray8
  /-- `CVT.GRAY8.RGB565`, R137. -/
  | cvtGray8Rgb565
  /-- `CVT.GRAY8.RGB888`, R130. -/
  | cvtGray8Rgb888
  /-- `CVT.GRAY8.RGBA8888`, R131. -/
  | cvtGray8Rgba8888
  /-- `CVT.GRAY8.YUV888`, R138. -/
  | cvtGray8Yuv888
  /-- `CVT.RGB565.GRAY8`, R139. -/
  | cvtRgb565Gray8
  /-- `CVT.RGB565.RGB565`, R133. -/
  | cvtRgb565Rgb565
  /-- `CVT.RGB565.RGB888`, R125. -/
  | cvtRgb565Rgb888
  /-- `CVT.RGB565.RGBA8888`, R132. -/
  | cvtRgb565Rgba8888
  /-- `CVT.RGB565.YUV888`, R140. -/
  | cvtRgb565Yuv888
  /-- `CVT.RGB888.GRAY8`, R141. -/
  | cvtRgb888Gray8
  /-- `CVT.RGB888.RGB565`, R124. -/
  | cvtRgb888Rgb565
  /-- `CVT.RGB888.RGB888`, R134. -/
  | cvtRgb888Rgb888
  /-- `CVT.RGB888.RGBA8888`, R129. -/
  | cvtRgb888Rgba8888
  /-- `CVT.RGB888.YUV888`, R160. -/
  | cvtRgb888Yuv888
  /-- `CVT.RGBA8888.GRAY8`, R142. -/
  | cvtRgba8888Gray8
  /-- `CVT.RGBA8888.RGB565`, R143. -/
  | cvtRgba8888Rgb565
  /-- `CVT.RGBA8888.RGB888`, R128. -/
  | cvtRgba8888Rgb888
  /-- `CVT.RGBA8888.RGBA8888`, R135. -/
  | cvtRgba8888Rgba8888
  /-- `CVT.RGBA8888.YUV888`, R144. -/
  | cvtRgba8888Yuv888
  /-- `CVT.YUV888.GRAY8`, R145. -/
  | cvtYuv888Gray8
  /-- `CVT.YUV888.RGB565`, R146. -/
  | cvtYuv888Rgb565
  /-- `CVT.YUV888.RGB888`, R161. -/
  | cvtYuv888Rgb888
  /-- `CVT.YUV888.RGBA8888`, R147. -/
  | cvtYuv888Rgba8888
  /-- `CVT.YUV888.YUV888`, R136. -/
  | cvtYuv888Yuv888
  /-- `CVT.BGR888.RGB565`, R126. -/
  | cvtBgr888Rgb565
  /-- `CVT.BGR888.RGB888`, R127. -/
  | cvtBgr888Rgb888
  /-- `CVT.S1.<other>`, R149. -/
  | cvtS1Other (src dst : Tag)
  /-- `CVT.<tag 5..7>`, R148. -/
  | cvtTag (src dst : Tag)
  /-- `DISP.RGB888 ch=1`, R182. -/
  | dispRgb888Ch1
  /-- `DISP.RGBA8888 ch=1`, R183. -/
  | dispRgba8888Ch1
  /-- `DISP.RGB888 ch=2`, R184. -/
  | dispRgb888Ch2
  /-- `DISP.RGBA8888 ch=2`, R185. -/
  | dispRgba8888Ch2
  /-- `DISP.RGB888 ch=3`, R186. -/
  | dispRgb888Ch3
  /-- `DISP.RGBA8888 ch=3`, R187. -/
  | dispRgba8888Ch3
  /-- `DISP.RGB888 ch=4`, R188. -/
  | dispRgb888Ch4
  /-- `DISP.RGBA8888 ch=4`, R189. -/
  | dispRgba8888Ch4
  /-- `DISP.<other> ch=1`, R191. -/
  | dispOtherCh1 (target : Tag)
  /-- `DISP.<other> ch=2`, R191. -/
  | dispOtherCh2 (target : Tag)
  /-- `DISP.<other> ch=3`, R191. -/
  | dispOtherCh3 (target : Tag)
  /-- `DISP.<other> ch=4`, R191. -/
  | dispOtherCh4 (target : Tag)
  /-- `DISP.<any> ch=<other>`, R190. -/
  | dispAnyChOther (target : Tag) (ch : Byte)
  /-- `RESIZE.NN.RGB888`, R207. -/
  | resizeNnRgb888
  /-- `RESIZE.BL.RGB888`, R207. -/
  | resizeBlRgb888
  /-- `RESIZE.NN.RGBA8888`, R207. -/
  | resizeNnRgba8888
  /-- `RESIZE.BL.RGBA8888`, R207. -/
  | resizeBlRgba8888
  /-- `RESIZE.<NN|BL>.<other>`, R226. -/
  | resizeOther (fmt : Tag) (kind : InterpKind)
  /-- `CROP.RGB888`, R220. -/
  | cropRgb888
  /-- `CROP.RGBA8888`, R220. -/
  | cropRgba8888
  /-- `CROP.<other>`, R226. -/
  | cropOther (fmt : Tag)
  /-- `PIPE.RGB565.NN ch=<n>`, R240. -/
  | pipeRgb565Nn (ch : Byte)
  /-- `PIPE.RGB565.BL ch=<n>`, R240. -/
  | pipeRgb565Bl (ch : Byte)
  /-- `PIPE.RGB888.NN ch=<n>`, R240. -/
  | pipeRgb888Nn (ch : Byte)
  /-- `PIPE.RGB888.BL ch=<n>`, R240. -/
  | pipeRgb888Bl (ch : Byte)
  /-- `PIPE.RGBA8888.NN ch=<n>`, R240. -/
  | pipeRgba8888Nn (ch : Byte)
  /-- `PIPE.RGBA8888.BL ch=<n>`, R240. -/
  | pipeRgba8888Bl (ch : Byte)
  /-- `PIPE.YUV888.NN ch=<n>`, R240. -/
  | pipeYuv888Nn (ch : Byte)
  /-- `PIPE.YUV888.BL ch=<n>`, R240. -/
  | pipeYuv888Bl (ch : Byte)
  /-- `PIPE.GRAY8.NN ch=<n>`, R244. -/
  | pipeGray8Nn (ch : Byte)
  /-- `PIPE.GRAY8.BL ch=<n>`, R244. -/
  | pipeGray8Bl (ch : Byte)
  /-- `PIPE.<tag 5..7>.<NN|BL> ch=<n>`, R244. -/
  | pipeTag (out : Tag) (kind : InterpKind) (ch : Byte)
  /-- `ILLEGAL`, R97. -/
  | illegal (word : Word)
deriving DecidableEq, Repr

end Sys2Proof
end

