-- ==== Sys2Proof/WellFormed.lean ====
section
/-!
DEFINITION. Which argument values are a row's own: the words that an earlier row of the ordered table takes
are not (spec/30_encoding.md R99, R103).
-/
namespace Sys2Proof

/-- A tag that is neither Rgb888 nor Rgba8888. -/
def notCanonicalTag (t : Tag) : Bool := t != 2 && t != 3

/-- A channel count outside 1..4 (R96). -/
def badChannelCount (ch : Byte) : Bool := ch == 0 || 5 ≤ ch.toNat

/-- A tag of 5, 6 or 7 (R92). -/
def unrecognizedTag (t : Tag) : Bool := 5 ≤ t.toNat

/-- The check on one command: its arguments select its own row and no earlier one (R99). -/
def wellFormed : Instr → Bool
  | .cvtS1Other src dst => !(src == 2 && (dst == 1 || dst == 2))
  | .cvtTag src dst => unrecognizedTag src || unrecognizedTag dst
  | .dispOtherCh1 t => notCanonicalTag t
  | .dispOtherCh2 t => notCanonicalTag t
  | .dispOtherCh3 t => notCanonicalTag t
  | .dispOtherCh4 t => notCanonicalTag t
  | .dispAnyChOther _ ch => badChannelCount ch
  | .resizeOther fmt _ => notCanonicalTag fmt
  | .cropOther fmt => notCanonicalTag fmt
  | .pipeTag out _ _ => unrecognizedTag out
  | .illegal w => illegalFields (fieldsOf w)
  | .cvtGray8Gray8 | .cvtGray8Rgb565 | .cvtGray8Rgb888 | .cvtGray8Rgba8888 | .cvtGray8Yuv888
  | .cvtRgb565Gray8 | .cvtRgb565Rgb565 | .cvtRgb565Rgb888 | .cvtRgb565Rgba8888 | .cvtRgb565Yuv888
  | .cvtRgb888Gray8 | .cvtRgb888Rgb565 | .cvtRgb888Rgb888 | .cvtRgb888Rgba8888 | .cvtRgb888Yuv888
  | .cvtRgba8888Gray8 | .cvtRgba8888Rgb565 | .cvtRgba8888Rgb888 | .cvtRgba8888Rgba8888
  | .cvtRgba8888Yuv888
  | .cvtYuv888Gray8 | .cvtYuv888Rgb565 | .cvtYuv888Rgb888 | .cvtYuv888Rgba8888 | .cvtYuv888Yuv888
  | .cvtBgr888Rgb565 | .cvtBgr888Rgb888
  | .dispRgb888Ch1 | .dispRgba8888Ch1 | .dispRgb888Ch2 | .dispRgba8888Ch2
  | .dispRgb888Ch3 | .dispRgba8888Ch3 | .dispRgb888Ch4 | .dispRgba8888Ch4
  | .resizeNnRgb888 | .resizeBlRgb888 | .resizeNnRgba8888 | .resizeBlRgba8888
  | .cropRgb888 | .cropRgba8888
  | .pipeRgb565Nn _ | .pipeRgb565Bl _ | .pipeRgb888Nn _ | .pipeRgb888Bl _
  | .pipeRgba8888Nn _ | .pipeRgba8888Bl _ | .pipeYuv888Nn _ | .pipeYuv888Bl _
  | .pipeGray8Nn _ | .pipeGray8Bl _ => true

/-- The command is one that some word decodes to. -/
abbrev WellFormed (i : Instr) : Prop := wellFormed i = true

end Sys2Proof
end

