-- ==== Sys2Proof/Decode.lean ====
section
/-!
DEFINITION. The decoder, total on all 2^32 words (spec/30_encoding.md R97, R99), the encoder, and the ordered
opcode table (spec/opcode_table.json) as masks and matches.
-/
namespace Sys2Proof

/-- The row of `CVT(from, s, to)` (R97, R99). With S = 1 the row `CVT.S1.<other>` takes the tags 5 to 7 too,
because it stands before `CVT.<tag 5..7>` in the table (log 12). -/
def decodeCvt (src : Tag) (s : BitVec 1) (dst : Tag) : Instr :=
  if s = 1 then
    if src = 2 ∧ dst = 1 then .cvtBgr888Rgb565
    else if src = 2 ∧ dst = 2 then .cvtBgr888Rgb888
    else .cvtS1Other src dst
  else match formatOfTag src, formatOfTag dst with
    | some .gray8, some .gray8 => .cvtGray8Gray8
    | some .gray8, some .rgb565 => .cvtGray8Rgb565
    | some .gray8, some .rgb888 => .cvtGray8Rgb888
    | some .gray8, some .rgba8888 => .cvtGray8Rgba8888
    | some .gray8, some .yuv888 => .cvtGray8Yuv888
    | some .rgb565, some .gray8 => .cvtRgb565Gray8
    | some .rgb565, some .rgb565 => .cvtRgb565Rgb565
    | some .rgb565, some .rgb888 => .cvtRgb565Rgb888
    | some .rgb565, some .rgba8888 => .cvtRgb565Rgba8888
    | some .rgb565, some .yuv888 => .cvtRgb565Yuv888
    | some .rgb888, some .gray8 => .cvtRgb888Gray8
    | some .rgb888, some .rgb565 => .cvtRgb888Rgb565
    | some .rgb888, some .rgb888 => .cvtRgb888Rgb888
    | some .rgb888, some .rgba8888 => .cvtRgb888Rgba8888
    | some .rgb888, some .yuv888 => .cvtRgb888Yuv888
    | some .rgba8888, some .gray8 => .cvtRgba8888Gray8
    | some .rgba8888, some .rgb565 => .cvtRgba8888Rgb565
    | some .rgba8888, some .rgb888 => .cvtRgba8888Rgb888
    | some .rgba8888, some .rgba8888 => .cvtRgba8888Rgba8888
    | some .rgba8888, some .yuv888 => .cvtRgba8888Yuv888
    | some .yuv888, some .gray8 => .cvtYuv888Gray8
    | some .yuv888, some .rgb565 => .cvtYuv888Rgb565
    | some .yuv888, some .rgb888 => .cvtYuv888Rgb888
    | some .yuv888, some .rgba8888 => .cvtYuv888Rgba8888
    | some .yuv888, some .yuv888 => .cvtYuv888Yuv888
    | some _, none => .cvtTag src dst
    | none, _ => .cvtTag src dst

/-- The row of `DISP(ch, to)` (R97, R99). -/
def decodeDisp (ch : Byte) (dst : Tag) : Instr :=
  if ch = 1 then if dst = 2 then .dispRgb888Ch1 else if dst = 3 then .dispRgba8888Ch1 else .dispOtherCh1 dst
  else if ch = 2 then if dst = 2 then .dispRgb888Ch2 else if dst = 3 then .dispRgba8888Ch2 else .dispOtherCh2 dst
  else if ch = 3 then if dst = 2 then .dispRgb888Ch3 else if dst = 3 then .dispRgba8888Ch3 else .dispOtherCh3 dst
  else if ch = 4 then if dst = 2 then .dispRgb888Ch4 else if dst = 3 then .dispRgba8888Ch4 else .dispOtherCh4 dst
  else .dispAnyChOther dst ch

/-- The row of `RESIZE(fmt, kind)` (R97, R99). -/
def decodeResize (fmt : Tag) (kind : InterpKind) : Instr :=
  if fmt = 2 then match kind with | .nearest => .resizeNnRgb888 | .bilinear => .resizeBlRgb888
  else if fmt = 3 then match kind with | .nearest => .resizeNnRgba8888 | .bilinear => .resizeBlRgba8888
  else .resizeOther fmt kind

/-- The row of `CROP(fmt)` (R97, R99). -/
def decodeCrop (fmt : Tag) : Instr :=
  if fmt = 2 then .cropRgb888 else if fmt = 3 then .cropRgba8888 else .cropOther fmt

/-- The row of `PIPE(ch, out, kind)` (R97, R99). -/
def decodePipe (ch : Byte) (out : Tag) (kind : InterpKind) : Instr :=
  match formatOfTag out, kind with
  | some .rgb565, .nearest => .pipeRgb565Nn ch
  | some .rgb565, .bilinear => .pipeRgb565Bl ch
  | some .rgb888, .nearest => .pipeRgb888Nn ch
  | some .rgb888, .bilinear => .pipeRgb888Bl ch
  | some .rgba8888, .nearest => .pipeRgba8888Nn ch
  | some .rgba8888, .bilinear => .pipeRgba8888Bl ch
  | some .yuv888, .nearest => .pipeYuv888Nn ch
  | some .yuv888, .bilinear => .pipeYuv888Bl ch
  | some .gray8, .nearest => .pipeGray8Nn ch
  | some .gray8, .bilinear => .pipeGray8Bl ch
  | none, _ => .pipeTag out kind ch

/-- The decoder on the fields of `w`, in the order of R97's pseudocode. -/
def decodeFields (w : Word) (f : Fields) : Instr :=
  if f.z11 ≠ 0 ∨ f.z14 ≠ 0 ∨ f.z24 ≠ 0 then .illegal w
  else if f.op = opCvt then
    if f.ik ≠ 0 ∨ f.ch ≠ 0 then .illegal w else decodeCvt f.src f.s f.dst
  else if f.op = opDisp then
    if f.src ≠ 0 ∨ f.s ≠ 0 ∨ f.ik ≠ 0 then .illegal w else decodeDisp f.ch f.dst
  else if f.op = opResize then
    if f.s ≠ 0 ∨ f.dst ≠ 0 ∨ f.ch ≠ 0 then .illegal w
    else match kindOfIk f.ik with
      | some kind => decodeResize f.src kind
      | none => .illegal w
  else if f.op = opCrop then
    if f.s ≠ 0 ∨ f.dst ≠ 0 ∨ f.ik ≠ 0 ∨ f.ch ≠ 0 then .illegal w else decodeCrop f.src
  else if f.op = opPipe then
    if f.src ≠ 0 ∨ f.s ≠ 0 then .illegal w
    else match kindOfIk f.ik with
      | some kind => decodePipe f.ch f.dst kind
      | none => .illegal w
  else .illegal w

/-- The decoder: every word is some row's command; a word of no other row is `illegal` (R97). -/
def decode (w : Word) : Instr := decodeFields w (fieldsOf w)

/-- The fields of a CVT word (R93, R99). -/
def cvtFields (src : Tag) (s : BitVec 1) (dst : Tag) : Fields :=
  { op := opCvt, src, s, dst, ik := 0, ch := 0 }

/-- The fields of a DISP word (R93, R99). -/
def dispFields (ch : Byte) (dst : Tag) : Fields :=
  { op := opDisp, src := 0, s := 0, dst, ik := 0, ch }

/-- The fields of a RESIZE word (R93, R99). -/
def resizeFields (fmt : Tag) (kind : InterpKind) : Fields :=
  { op := opResize, src := fmt, s := 0, dst := 0, ik := ikOfKind kind, ch := 0 }

/-- The fields of a CROP word (R93, R99). -/
def cropFields (fmt : Tag) : Fields :=
  { op := opCrop, src := fmt, s := 0, dst := 0, ik := 0, ch := 0 }

/-- The fields of a PIPE word (R93, R99). -/
def pipeFields (ch : Byte) (out : Tag) (kind : InterpKind) : Fields :=
  { op := opPipe, src := 0, s := 0, dst := out, ik := ikOfKind kind, ch }

/-- The encoder, from the field layout of R90 and the field use of R93; an illegal word is itself. -/
def encode : Instr → Word
  | .cvtGray8Gray8 => assemble (cvtFields 0 0 0)
  | .cvtGray8Rgb565 => assemble (cvtFields 0 0 1)
  | .cvtGray8Rgb888 => assemble (cvtFields 0 0 2)
  | .cvtGray8Rgba8888 => assemble (cvtFields 0 0 3)
  | .cvtGray8Yuv888 => assemble (cvtFields 0 0 4)
  | .cvtRgb565Gray8 => assemble (cvtFields 1 0 0)
  | .cvtRgb565Rgb565 => assemble (cvtFields 1 0 1)
  | .cvtRgb565Rgb888 => assemble (cvtFields 1 0 2)
  | .cvtRgb565Rgba8888 => assemble (cvtFields 1 0 3)
  | .cvtRgb565Yuv888 => assemble (cvtFields 1 0 4)
  | .cvtRgb888Gray8 => assemble (cvtFields 2 0 0)
  | .cvtRgb888Rgb565 => assemble (cvtFields 2 0 1)
  | .cvtRgb888Rgb888 => assemble (cvtFields 2 0 2)
  | .cvtRgb888Rgba8888 => assemble (cvtFields 2 0 3)
  | .cvtRgb888Yuv888 => assemble (cvtFields 2 0 4)
  | .cvtRgba8888Gray8 => assemble (cvtFields 3 0 0)
  | .cvtRgba8888Rgb565 => assemble (cvtFields 3 0 1)
  | .cvtRgba8888Rgb888 => assemble (cvtFields 3 0 2)
  | .cvtRgba8888Rgba8888 => assemble (cvtFields 3 0 3)
  | .cvtRgba8888Yuv888 => assemble (cvtFields 3 0 4)
  | .cvtYuv888Gray8 => assemble (cvtFields 4 0 0)
  | .cvtYuv888Rgb565 => assemble (cvtFields 4 0 1)
  | .cvtYuv888Rgb888 => assemble (cvtFields 4 0 2)
  | .cvtYuv888Rgba8888 => assemble (cvtFields 4 0 3)
  | .cvtYuv888Yuv888 => assemble (cvtFields 4 0 4)
  | .cvtBgr888Rgb565 => assemble (cvtFields 2 1 1)
  | .cvtBgr888Rgb888 => assemble (cvtFields 2 1 2)
  | .cvtS1Other src dst => assemble (cvtFields src 1 dst)
  | .cvtTag src dst => assemble (cvtFields src 0 dst)
  | .dispRgb888Ch1 => assemble (dispFields 1 2)
  | .dispRgba8888Ch1 => assemble (dispFields 1 3)
  | .dispRgb888Ch2 => assemble (dispFields 2 2)
  | .dispRgba8888Ch2 => assemble (dispFields 2 3)
  | .dispRgb888Ch3 => assemble (dispFields 3 2)
  | .dispRgba8888Ch3 => assemble (dispFields 3 3)
  | .dispRgb888Ch4 => assemble (dispFields 4 2)
  | .dispRgba8888Ch4 => assemble (dispFields 4 3)
  | .dispOtherCh1 target => assemble (dispFields 1 target)
  | .dispOtherCh2 target => assemble (dispFields 2 target)
  | .dispOtherCh3 target => assemble (dispFields 3 target)
  | .dispOtherCh4 target => assemble (dispFields 4 target)
  | .dispAnyChOther target ch => assemble (dispFields ch target)
  | .resizeNnRgb888 => assemble (resizeFields 2 .nearest)
  | .resizeBlRgb888 => assemble (resizeFields 2 .bilinear)
  | .resizeNnRgba8888 => assemble (resizeFields 3 .nearest)
  | .resizeBlRgba8888 => assemble (resizeFields 3 .bilinear)
  | .resizeOther fmt kind => assemble (resizeFields fmt kind)
  | .cropRgb888 => assemble (cropFields 2)
  | .cropRgba8888 => assemble (cropFields 3)
  | .cropOther fmt => assemble (cropFields fmt)
  | .pipeRgb565Nn ch => assemble (pipeFields ch 1 .nearest)
  | .pipeRgb565Bl ch => assemble (pipeFields ch 1 .bilinear)
  | .pipeRgb888Nn ch => assemble (pipeFields ch 2 .nearest)
  | .pipeRgb888Bl ch => assemble (pipeFields ch 2 .bilinear)
  | .pipeRgba8888Nn ch => assemble (pipeFields ch 3 .nearest)
  | .pipeRgba8888Bl ch => assemble (pipeFields ch 3 .bilinear)
  | .pipeYuv888Nn ch => assemble (pipeFields ch 4 .nearest)
  | .pipeYuv888Bl ch => assemble (pipeFields ch 4 .bilinear)
  | .pipeGray8Nn ch => assemble (pipeFields ch 0 .nearest)
  | .pipeGray8Bl ch => assemble (pipeFields ch 0 .bilinear)
  | .pipeTag out kind ch => assemble (pipeFields ch out kind)
  | .illegal word => word

/-- `decode` on an instruction's bits as spec/opcode_table.json numbers them: one 32-bit word (R90). -/
def decodeTableWord (nbits w : Nat) : Option Instr :=
  if nbits ≤ 32 ∧ w < 2 ^ nbits then some (decode (BitVec.ofNat 32 w)) else none

/-- One row of the opcode table: it takes the words `c` with `c & mask = pattern` (R99). -/
structure Row where
  pattern : Word
  mask : Word
deriving DecidableEq, Repr

/-- A row takes a word (R99). -/
def rowTakes (r : Row) (w : Word) : Bool := w &&& r.mask == r.pattern

/-- The row of a command, transcribed from spec/opcode_table.json. -/
def rowOf : Instr → Row
  | .cvtGray8Gray8 => ⟨0x00000001, 0xFFFFFFFF⟩
  | .cvtGray8Rgb565 => ⟨0x00000101, 0xFFFFFFFF⟩
  | .cvtGray8Rgb888 => ⟨0x00000201, 0xFFFFFFFF⟩
  | .cvtGray8Rgba8888 => ⟨0x00000301, 0xFFFFFFFF⟩
  | .cvtGray8Yuv888 => ⟨0x00000401, 0xFFFFFFFF⟩
  | .cvtRgb565Gray8 => ⟨0x00000011, 0xFFFFFFFF⟩
  | .cvtRgb565Rgb565 => ⟨0x00000111, 0xFFFFFFFF⟩
  | .cvtRgb565Rgb888 => ⟨0x00000211, 0xFFFFFFFF⟩
  | .cvtRgb565Rgba8888 => ⟨0x00000311, 0xFFFFFFFF⟩
  | .cvtRgb565Yuv888 => ⟨0x00000411, 0xFFFFFFFF⟩
  | .cvtRgb888Gray8 => ⟨0x00000021, 0xFFFFFFFF⟩
  | .cvtRgb888Rgb565 => ⟨0x00000121, 0xFFFFFFFF⟩
  | .cvtRgb888Rgb888 => ⟨0x00000221, 0xFFFFFFFF⟩
  | .cvtRgb888Rgba8888 => ⟨0x00000321, 0xFFFFFFFF⟩
  | .cvtRgb888Yuv888 => ⟨0x00000421, 0xFFFFFFFF⟩
  | .cvtRgba8888Gray8 => ⟨0x00000031, 0xFFFFFFFF⟩
  | .cvtRgba8888Rgb565 => ⟨0x00000131, 0xFFFFFFFF⟩
  | .cvtRgba8888Rgb888 => ⟨0x00000231, 0xFFFFFFFF⟩
  | .cvtRgba8888Rgba8888 => ⟨0x00000331, 0xFFFFFFFF⟩
  | .cvtRgba8888Yuv888 => ⟨0x00000431, 0xFFFFFFFF⟩
  | .cvtYuv888Gray8 => ⟨0x00000041, 0xFFFFFFFF⟩
  | .cvtYuv888Rgb565 => ⟨0x00000141, 0xFFFFFFFF⟩
  | .cvtYuv888Rgb888 => ⟨0x00000241, 0xFFFFFFFF⟩
  | .cvtYuv888Rgba8888 => ⟨0x00000341, 0xFFFFFFFF⟩
  | .cvtYuv888Yuv888 => ⟨0x00000441, 0xFFFFFFFF⟩
  | .cvtBgr888Rgb565 => ⟨0x000001A1, 0xFFFFFFFF⟩
  | .cvtBgr888Rgb888 => ⟨0x000002A1, 0xFFFFFFFF⟩
  | .cvtS1Other _ _ => ⟨0x00000081, 0xFFFFF88F⟩
  | .cvtTag _ _ => ⟨0x00000001, 0xFFFFF80F⟩
  | .dispRgb888Ch1 => ⟨0x00010202, 0xFFFFFFFF⟩
  | .dispRgba8888Ch1 => ⟨0x00010302, 0xFFFFFFFF⟩
  | .dispRgb888Ch2 => ⟨0x00020202, 0xFFFFFFFF⟩
  | .dispRgba8888Ch2 => ⟨0x00020302, 0xFFFFFFFF⟩
  | .dispRgb888Ch3 => ⟨0x00030202, 0xFFFFFFFF⟩
  | .dispRgba8888Ch3 => ⟨0x00030302, 0xFFFFFFFF⟩
  | .dispRgb888Ch4 => ⟨0x00040202, 0xFFFFFFFF⟩
  | .dispRgba8888Ch4 => ⟨0x00040302, 0xFFFFFFFF⟩
  | .dispOtherCh1 _ => ⟨0x00010002, 0xFFFFF8FF⟩
  | .dispOtherCh2 _ => ⟨0x00020002, 0xFFFFF8FF⟩
  | .dispOtherCh3 _ => ⟨0x00030002, 0xFFFFF8FF⟩
  | .dispOtherCh4 _ => ⟨0x00040002, 0xFFFFF8FF⟩
  | .dispAnyChOther _ _ => ⟨0x00000002, 0xFF00F8FF⟩
  | .resizeNnRgb888 => ⟨0x00000023, 0xFFFFFFFF⟩
  | .resizeBlRgb888 => ⟨0x00001023, 0xFFFFFFFF⟩
  | .resizeNnRgba8888 => ⟨0x00000033, 0xFFFFFFFF⟩
  | .resizeBlRgba8888 => ⟨0x00001033, 0xFFFFFFFF⟩
  | .resizeOther _ _ => ⟨0x00000003, 0xFFFFEF8F⟩
  | .cropRgb888 => ⟨0x00000024, 0xFFFFFFFF⟩
  | .cropRgba8888 => ⟨0x00000034, 0xFFFFFFFF⟩
  | .cropOther _ => ⟨0x00000004, 0xFFFFFF8F⟩
  | .pipeRgb565Nn _ => ⟨0x00000105, 0xFF00FFFF⟩
  | .pipeRgb565Bl _ => ⟨0x00001105, 0xFF00FFFF⟩
  | .pipeRgb888Nn _ => ⟨0x00000205, 0xFF00FFFF⟩
  | .pipeRgb888Bl _ => ⟨0x00001205, 0xFF00FFFF⟩
  | .pipeRgba8888Nn _ => ⟨0x00000305, 0xFF00FFFF⟩
  | .pipeRgba8888Bl _ => ⟨0x00001305, 0xFF00FFFF⟩
  | .pipeYuv888Nn _ => ⟨0x00000405, 0xFF00FFFF⟩
  | .pipeYuv888Bl _ => ⟨0x00001405, 0xFF00FFFF⟩
  | .pipeGray8Nn _ => ⟨0x00000005, 0xFF00FFFF⟩
  | .pipeGray8Bl _ => ⟨0x00001005, 0xFF00FFFF⟩
  | .pipeTag _ _ _ => ⟨0x00000005, 0xFF00E8FF⟩
  | .illegal _ => ⟨0x00000000, 0x00000000⟩

/-- The rows in the table's order (R99): CVT. -/
def cvtRows : List Row :=
  [⟨0x00000001, 0xFFFFFFFF⟩, ⟨0x00000101, 0xFFFFFFFF⟩, ⟨0x00000201, 0xFFFFFFFF⟩,
   ⟨0x00000301, 0xFFFFFFFF⟩, ⟨0x00000401, 0xFFFFFFFF⟩, ⟨0x00000011, 0xFFFFFFFF⟩,
   ⟨0x00000111, 0xFFFFFFFF⟩, ⟨0x00000211, 0xFFFFFFFF⟩, ⟨0x00000311, 0xFFFFFFFF⟩,
   ⟨0x00000411, 0xFFFFFFFF⟩, ⟨0x00000021, 0xFFFFFFFF⟩, ⟨0x00000121, 0xFFFFFFFF⟩,
   ⟨0x00000221, 0xFFFFFFFF⟩, ⟨0x00000321, 0xFFFFFFFF⟩, ⟨0x00000421, 0xFFFFFFFF⟩,
   ⟨0x00000031, 0xFFFFFFFF⟩, ⟨0x00000131, 0xFFFFFFFF⟩, ⟨0x00000231, 0xFFFFFFFF⟩,
   ⟨0x00000331, 0xFFFFFFFF⟩, ⟨0x00000431, 0xFFFFFFFF⟩, ⟨0x00000041, 0xFFFFFFFF⟩,
   ⟨0x00000141, 0xFFFFFFFF⟩, ⟨0x00000241, 0xFFFFFFFF⟩, ⟨0x00000341, 0xFFFFFFFF⟩,
   ⟨0x00000441, 0xFFFFFFFF⟩, ⟨0x000001A1, 0xFFFFFFFF⟩, ⟨0x000002A1, 0xFFFFFFFF⟩,
   ⟨0x00000081, 0xFFFFF88F⟩, ⟨0x00000001, 0xFFFFF80F⟩]

/-- The rows of DISP (R99). -/
def dispRows : List Row :=
  [⟨0x00010202, 0xFFFFFFFF⟩, ⟨0x00010302, 0xFFFFFFFF⟩, ⟨0x00020202, 0xFFFFFFFF⟩,
   ⟨0x00020302, 0xFFFFFFFF⟩, ⟨0x00030202, 0xFFFFFFFF⟩, ⟨0x00030302, 0xFFFFFFFF⟩,
   ⟨0x00040202, 0xFFFFFFFF⟩, ⟨0x00040302, 0xFFFFFFFF⟩, ⟨0x00010002, 0xFFFFF8FF⟩,
   ⟨0x00020002, 0xFFFFF8FF⟩, ⟨0x00030002, 0xFFFFF8FF⟩, ⟨0x00040002, 0xFFFFF8FF⟩,
   ⟨0x00000002, 0xFF00F8FF⟩]

/-- The rows of RESIZE and CROP (R99). -/
def geometryRows : List Row :=
  [⟨0x00000023, 0xFFFFFFFF⟩, ⟨0x00001023, 0xFFFFFFFF⟩, ⟨0x00000033, 0xFFFFFFFF⟩,
   ⟨0x00001033, 0xFFFFFFFF⟩, ⟨0x00000003, 0xFFFFEF8F⟩, ⟨0x00000024, 0xFFFFFFFF⟩,
   ⟨0x00000034, 0xFFFFFFFF⟩, ⟨0x00000004, 0xFFFFFF8F⟩]

/-- The rows of PIPE (R99). -/
def pipeRows : List Row :=
  [⟨0x00000105, 0xFF00FFFF⟩, ⟨0x00001105, 0xFF00FFFF⟩, ⟨0x00000205, 0xFF00FFFF⟩,
   ⟨0x00001205, 0xFF00FFFF⟩, ⟨0x00000305, 0xFF00FFFF⟩, ⟨0x00001305, 0xFF00FFFF⟩,
   ⟨0x00000405, 0xFF00FFFF⟩, ⟨0x00001405, 0xFF00FFFF⟩, ⟨0x00000005, 0xFF00FFFF⟩,
   ⟨0x00001005, 0xFF00FFFF⟩, ⟨0x00000005, 0xFF00E8FF⟩]

/-- The whole ordered table; its last row takes every word and is Illegal (R99). -/
def opcodeTable : List Row := cvtRows ++ dispRows ++ geometryRows ++ pipeRows ++ [⟨0, 0⟩]

/-- The first row of the table that takes the word (R99). -/
def firstRow (w : Word) : Option Row := opcodeTable.find? (rowTakes · w)

end Sys2Proof
end

