-- ==== Sys2Proof/Machine/State.lean ====
section
/-!
DEFINITION. The state of one engine: the fifteen registers, the SRC and DST memories (spec/10_state.md R25,
R35), the parameters it was built with and the host script that drives it (R27); the reasons a step stops;
the state after reset (R36).
-/
namespace Sys2Proof.Machine

/-- A byte memory: the bytes that hold a value, addresses strictly rising. An address that is not listed
holds no value: a SRC byte never written since reset, a DST byte outside the valid window. -/
abbrev Memory := List Host.Cell

/-- The canonical form. No entry equals what an unlisted address reads as, because that is no value. -/
abbrev Memory.wf (m : Memory) : Prop := (m.map Prod.fst).Pairwise (· < ·)

/-- The eight operand registers, written by the host and never by the engine (R25). -/
structure Operands where
  srcW   : Word
  srcH   : Word
  srcLen : Word
  argX   : Word
  argY   : Word
  argW   : Word
  argH   : Word
  metaIn : Word
deriving DecidableEq, Repr

/-- The six result registers, written by the engine at the end of every command (R25). -/
structure Results where
  status  : Word
  outW    : Word
  outH    : Word
  outCh   : Word
  /-- A natural number, as R34 asks for CAP = ∞ (log 10). -/
  outLen  : Nat
  metaOut : Word
deriving DecidableEq, Repr

/-- One access of the host (10_state.md R24, R25, R31, R32; 20_memory.md R65, R66, R67). A register is named
by its word index, so that the register at offset `4 * index` is meant (log 11). -/
inductive HostAction where
  /-- Write a register word; index 0 is CMD and starts a command (`wr`, `go`). -/
  | writeReg (index : Nat) (v : Word)
  /-- Read a register word (`rd`). -/
  | readReg (index : Nat)
  /-- Write one SRC byte (`ld`). -/
  | writeSrc (a : Nat) (b : Byte)
  /-- Read one SRC byte. -/
  | readSrc (a : Nat)
  /-- Write one DST byte: ignored (R32). -/
  | writeDst (a : Nat) (b : Byte)
  /-- Read one DST byte (`rd DST`). -/
  | readDst (a : Nat)
  /-- The pseudo-action `mv SRC, DST` (30_encoding.md R101). -/
  | copyDstToSrc
  /-- A reset between two commands (R37; 70_reset_and_hazards.md R300). -/
  | reset
deriving DecidableEq, Repr

/-- The whole state. The spec's own state is `cmd`, `ops`, `res`, `src`, `dst` (R35). -/
structure State where
  /-- The last command word written (R29). -/
  cmd    : Word
  ops    : Operands
  res    : Results
  src    : Memory
  dst    : Memory
  /-- The engine's parameters; no step changes them (R38, log 1). -/
  params : Params
  /-- The host actions still to be performed, in order (R27, log 4). -/
  script : List HostAction
  /-- What the host's reads have returned, newest first (log 7). -/
  reads  : List Nat
  /-- How many reads of unspecified DST bytes there have been: the index of the next free byte (log 6). -/
  fresh  : Nat
deriving DecidableEq, Repr

/-- Why the machine stops with a fault. -/
inductive Fault where
  /-- A SRC byte that the host has not written since reset is read: by a command whose checks pass
  (10_state.md R31, 70_reset_and_hazards.md R301: "a model treats such a read as a fault"), or by the host
  itself (92_eei_decisions.md D40). Safe: the hardware goes on with unspecified bytes. Log 5. -/
  | unwrittenSrcByte
deriving DecidableEq, Repr

/-- Why a step gives no meaning. -/
inductive Refusal where
  /-- An instruction without a meaning: raised by no arm of `exec`. Safe. -/
  | notModelled (mnemonic : String)
  /-- The host's `mv SRC, DST` when OUT_LEN does not fit the 32-bit register SRC_LEN, which takes CAP = ∞
  (00_scope.md R8: "`v` must fit the register"). Raised by the host action only, by no instruction. Safe.
  Log 9. -/
  | moveTooLong
deriving DecidableEq, Repr

/-- The result registers after reset: all 0 (R36). -/
def Results.reset : Results :=
  { status := 0, outW := 0, outH := 0, outCh := 0, outLen := 0, metaOut := 0 }

/-- The operand registers after reset: all 0 (R36). -/
def Operands.reset : Operands :=
  { srcW := 0, srcH := 0, srcLen := 0, argX := 0, argY := 0, argW := 0, argH := 0, metaIn := 0 }

/-- The parameters that `State.reset` carries: CAP = ∞, `Q8` and `Resample` unspecified, engine number 0.
DESIGN CHOICE (log 1). -/
def resetParams : Params := { cap := none, q8 := .unspecified, resample := .unspecified, engine := 0 }

/-- The engine right after reset: every register 0, both memories unspecified, no command started (R36). The
last four fields are the model's own: DESIGN CHOICE (log 1, 4, 6, 7). -/
def State.reset : State where
  cmd := 0
  ops := Operands.reset
  res := Results.reset
  src := []
  dst := []
  params := resetParams
  script := []
  reads := []
  fresh := 0

end Sys2Proof.Machine
end

