-- ==== Sys2Proof/Machine/Flags.lean ====
section
/-!
DEFINITION. The error kinds and the STATUS word (spec/10_state.md R28, spec/60_exceptions.md R260).
-/
namespace Sys2Proof.Machine

/-- The error kinds that a command can end with (R260). Ok is no error, InvalidGeometry is the diagnostic and
never an error (R264). -/
inductive ErrKind where
  | shapeMismatch | unsupportedChannelCount | unsupportedConversion | illegalCommand | resourceLimit
deriving DecidableEq, Repr

/-- The code of an error kind (R260). -/
def errCode : ErrKind → BitVec 4
  | .shapeMismatch => 1
  | .unsupportedChannelCount => 2
  | .unsupportedConversion => 3
  | .illegalCommand => 5
  | .resourceLimit => 6

/-- The error kind of a code, none for 0 (Ok), 4 (InvalidGeometry, no error) and the codes of no kind (R260). -/
def kindOfCode (c : BitVec 4) : Option ErrKind :=
  if c = 1 then some .shapeMismatch
  else if c = 2 then some .unsupportedChannelCount
  else if c = 3 then some .unsupportedConversion
  else if c = 5 then some .illegalCommand
  else if c = 6 then some .resourceLimit
  else none

/-- The fields of STATUS (R28). -/
def statusErr (st : Word) : BitVec 4 := st.extractLsb' 0 4
def statusDiag (st : Word) : Bool := st.getLsbD 8
def statusDone (st : Word) : Bool := st.getLsbD 31

/-- The STATUS word of the given fields; bits [7:4] and [30:9] are 0 (R28). -/
def statusWord (done diag : Bool) (err : BitVec 4) : Word :=
  BitVec.ofBool done ++ (0 : BitVec 22) ++ BitVec.ofBool diag ++ (0 : BitVec 4) ++ err

/-- STATUS after a failed command: DONE = 1, DIAG = 0, ERR = code (R34, R266). -/
def statusOfError (e : ErrKind) : Word := statusWord true false (errCode e)

/-- STATUS after a successful command: DONE = 1, ERR = 0, DIAG as the result says (R34, R267). -/
def statusOfSuccess (diag : Bool) : Word := statusWord true diag 0

end Sys2Proof.Machine
end

