-- ==== Sys2Proof/Machine/Operands.lean ====
section
/-!
DEFINITION. Operand forms: bytes per pixel, the dispatch table's source formats, pixels and image bytes by
index, the register file by word index (spec/10_state.md R21, R25, spec/20_memory.md R64,
spec/42_dispatch.md R181).
-/
namespace Sys2Proof.Machine

/-- Bytes per pixel (10_state.md R21). -/
def bpp : ColorFormat → Nat
  | .gray8 => 1 | .rgb565 => 2 | .rgb888 => 3 | .rgba8888 => 4 | .yuv888 => 3

/-- The source format of a channel count, exhaustive over 1..4 (42_dispatch.md R181). -/
def formatOfChannels (ch : Byte) : Option ColorFormat :=
  if ch = 1 then some .gray8
  else if ch = 2 then some .rgb565
  else if ch = 3 then some .rgb888
  else if ch = 4 then some .rgba8888
  else none

/-- One source pixel: byte number `k` of it (40_codec.md R122). Only `k` below the format's `bpp` is used. -/
abbrev Pixel := Nat → Byte

/-- Byte `i` of an image. Every use is below the image's length. -/
def byteAt (img : List Byte) (i : Nat) : Byte := img.getD i 0

/-- Source pixel `P_p` of an image of `b` bytes per pixel (40_codec.md R122). -/
def pixelAt (img : List Byte) (b p : Nat) : Pixel := fun k => byteAt img (p * b + k)

/-- `img[r][c][k]` for an image of width `w` and `b` bytes per pixel (20_memory.md R64). -/
def imageByte (img : List Byte) (w b r c k : Nat) : Byte := byteAt img ((r * w + c) * b + k)

/-- The bytes of the `w` by `h` image whose byte `[r][c][k]` is `f r c k`, rows from the top, pixels from the
left, no padding (20_memory.md R64). -/
def buildImage (w h b : Nat) (f : Nat → Nat → Nat → Byte) : List Byte :=
  (List.range h).flatMap fun r => (List.range w).flatMap fun c => (List.range b).map (f r c)

/-- A pixelwise conversion of `n` pixels of `b` bytes each, in place order (40_codec.md R122). -/
def mapPixels (b : Nat) (f : Pixel → List Byte) (n : Nat) (img : List Byte) : List Byte :=
  (List.range n).flatMap fun p => f (pixelAt img b p)

/-- The fifteen registers (10_state.md R25). -/
inductive RegName where
  | cmd | status | srcW | srcH | srcLen | argX | argY | argW | argH | metaIn
  | outW | outH | outCh | outLen | metaOut
deriving DecidableEq, Repr

/-- The register at offset `4 * index`; from offset 0x3C on there is none (10_state.md R25). -/
def regAt (index : Nat) : Option RegName :=
  [RegName.cmd, .status, .srcW, .srcH, .srcLen, .argX, .argY, .argW, .argH, .metaIn,
   .outW, .outH, .outCh, .outLen, .metaOut][index]?

/-- The value of a register. OUT_LEN may exceed a word when CAP is ∞ (10_state.md R34, log 10). -/
def readReg (s : State) : RegName → Nat
  | .cmd => s.cmd.toNat
  | .status => s.res.status.toNat
  | .srcW => s.ops.srcW.toNat
  | .srcH => s.ops.srcH.toNat
  | .srcLen => s.ops.srcLen.toNat
  | .argX => s.ops.argX.toNat
  | .argY => s.ops.argY.toNat
  | .argW => s.ops.argW.toNat
  | .argH => s.ops.argH.toNat
  | .metaIn => s.ops.metaIn.toNat
  | .outW => s.res.outW.toNat
  | .outH => s.res.outH.toNat
  | .outCh => s.res.outCh.toNat
  | .outLen => s.res.outLen
  | .metaOut => s.res.metaOut.toNat

/-- A host write to an operand register; CMD and the read-only registers are left alone here (10_state.md
R25: "A host write to a read-only register is ignored"). -/
def writeOperand (o : Operands) (v : Word) : RegName → Operands
  | .srcW => { o with srcW := v }
  | .srcH => { o with srcH := v }
  | .srcLen => { o with srcLen := v }
  | .argX => { o with argX := v }
  | .argY => { o with argY := v }
  | .argW => { o with argW := v }
  | .argH => { o with argH := v }
  | .metaIn => { o with metaIn := v }
  | .cmd | .status | .outW | .outH | .outCh | .outLen | .metaOut => o

end Sys2Proof.Machine
end

