-- ==== Sys2Proof/Machine/Ops.lean ====
section
/-!
DEFINITION. The shared operations: the byte memories, the capacity, the result of a command and its commit
(spec/10_state.md R33, R34), ending a command with an error (spec/60_exceptions.md R266).
-/
namespace Sys2Proof.Machine

/-- The value of one byte, none where the memory holds no value there. -/
def readByte : Memory → Nat → Option Byte
  | [], _ => none
  | (a', b) :: m, a => if a' = a then some b else readByte m a

/-- Write one byte, keeping the addresses strictly rising. -/
def writeByte : Memory → Nat → Byte → Memory
  | [], a, b => [(a, b)]
  | (a', b') :: m, a, b =>
    if a < a' then (a, b) :: (a', b') :: m
    else if a = a' then (a, b) :: m
    else (a', b') :: writeByte m a b

/-- The `n` bytes from `a` on, none if one of them holds no value. -/
def readRange (m : Memory) (a : Nat) : Nat → Option (List Byte)
  | 0 => some []
  | n + 1 =>
    match readByte m a, readRange m (a + 1) n with
    | some b, some bs => some (b :: bs)
    | _, _ => none

/-- The memory that holds exactly the given bytes, from address `a` on. -/
def memoryOfBytes (a : Nat) : List Byte → Memory
  | [] => []
  | b :: bs => (a, b) :: memoryOfBytes (a + 1) bs

/-- A buffer of `n` bytes fits: not `n > CAP` (10_state.md R34, 92_eei_decisions.md D4). -/
def fits (p : Params) (n : Nat) : Bool :=
  match p.cap with
  | none => true
  | some c => n ≤ c.toNat

/-- An index of SRC or DST: below CAP (20_memory.md R66). -/
def inCap (p : Params) (a : Nat) : Bool :=
  match p.cap with
  | none => true
  | some c => a < c.toNat

/-- What a command that passes its checks will deliver (10_state.md R33): the shape of its output and the
output bytes as a function of the image `SRC[0 .. SRC_LEN)`. The checks themselves read registers only. -/
structure Plan where
  diag : Bool
  outW : Nat
  outH : Nat
  outCh : Nat
  metadata : Word
  bytes : List Byte → List Byte

/-- The commit of a failed command (10_state.md R34; `raise E`, 60_exceptions.md R266): STATUS holds the code, the
other result registers are 0, no DST byte is valid. CMD, the operand registers and SRC stay. -/
def raiseError (s : State) (e : ErrKind) : State :=
  { s with
    res := { status := statusOfError e, outW := 0, outH := 0, outCh := 0, outLen := 0, metaOut := 0 }
    dst := [] }

/-- The commit of a successful command (10_state.md R34): DST holds exactly the output bytes. -/
def commitSuccess (s : State) (plan : Plan) (out : List Byte) : State :=
  { s with
    res :=
      { status := statusOfSuccess plan.diag
        outW := BitVec.ofNat 32 plan.outW
        outH := BitVec.ofNat 32 plan.outH
        outCh := BitVec.ofNat 32 plan.outCh
        outLen := out.length
        metaOut := plan.metadata }
    dst := memoryOfBytes 0 out }

/-- Finish a command from the outcome of its checks (10_state.md R33, R34; 20_memory.md R73). The capacity of
the output is checked from its shape, so that a command that ends in an error reads no SRC byte (log 8); one
that passes reads all of `SRC[0 .. SRC_LEN)` and faults if a byte there was never written
(70_reset_and_hazards.md R301, log 5). -/
def finish (s : State) : Except ErrKind Plan → Host.Outcome State Fault Refusal
  | .error e => .next (raiseError s e)
  | .ok plan =>
    if fits s.params (plan.outW * plan.outH * plan.outCh) then
      match readRange s.src 0 s.ops.srcLen.toNat with
      | some img => .next (commitSuccess s plan (plan.bytes img))
      | none => .fault .unwrittenSrcByte
    else .next (raiseError s .resourceLimit)

end Sys2Proof.Machine
end

