-- ==== Sys2Proof/Machine/Quantise.lean ====
section
/-!
DEFINITION. The quantiser `Q8 : Rat → u8` (spec/41_yuv.md R165 to R167).
-/
namespace Sys2Proof.Machine

/-- Saturate an integer to a byte: `min(255, max(0, n))`. -/
def clampByte (n : Int) : Byte := BitVec.ofNat 8 (min 255 n.toNat)

/-- Reference instantiation `Q8_trunc`: truncate, then saturate (R166). -/
def q8Trunc (q : Rat) : Byte := clampByte q.floor

/-- Reference instantiation `Q8_round`: round half up, then saturate (R167). -/
def q8Round (q : Rat) : Byte := clampByte (q + 1 / 2).floor

/-- The engine's quantiser (R165): the free value, or the reference it was built with. -/
def quantise : Quantiser → Rat → Byte
  | .unspecified, q => Config.q8 q
  | .trunc, q => q8Trunc q
  | .round, q => q8Round q

end Sys2Proof.Machine
end

