-- ==== Sys2Proof/Machine/Codec.lean ====
section
/-!
DEFINITION. The Codec: the pixel functions, the matrix of supported pairs and the command CVT
(spec/40_codec.md R120 to R152, spec/41_yuv.md R160 to R164).
-/
namespace Sys2Proof.Machine

/-- The Rgb565 word of three channels by truncating quantisation (R124). -/
def pack565 (r g b : Byte) : BitVec 16 :=
  ((r >>> 3).setWidth 16 <<< 11) ||| ((g >>> 2).setWidth 16 <<< 5) ||| (b >>> 3).setWidth 16

/-- The three channels of an Rgb565 word, zero-extended and shifted (R125). -/
def unpack565 (w : BitVec 16) : Byte × Byte × Byte :=
  ((w.extractLsb' 11 5).setWidth 8 <<< 3, (w.extractLsb' 5 6).setWidth 8 <<< 2,
    (w.extractLsb' 0 5).setWidth 8 <<< 3)

/-- The two bytes of an Rgb565 word, low byte first (20_memory.md R61). -/
def bytesOf565 (w : BitVec 16) : List Byte := [w.extractLsb' 0 8, w.extractLsb' 8 8]

/-- The Rgb565 word whose low byte is `lo` (20_memory.md R61). -/
def wordOf565 (lo hi : Byte) : BitVec 16 := hi ++ lo

/-- A pixel copied unchanged (R123, R133 to R136). -/
def pixelCopy (b : Nat) (p : Pixel) : List Byte := (List.range b).map p

/-- Pack (R124). -/
def pixelPack (p : Pixel) : List Byte := bytesOf565 (pack565 (p 0) (p 1) (p 2))

/-- Pack from the bytes B, G, R (R126). -/
def pixelPackBgr (p : Pixel) : List Byte := bytesOf565 (pack565 (p 2) (p 1) (p 0))

/-- Channel swap (R127). -/
def pixelSwap (p : Pixel) : List Byte := [p 2, p 1, p 0]

/-- Unpack (R125). -/
def pixelUnpack (p : Pixel) : List Byte :=
  let c := unpack565 (wordOf565 (p 0) (p 1))
  [c.1, c.2.1, c.2.2]

/-- Unpack, then add alpha (R132). -/
def pixelUnpackAlpha (p : Pixel) : List Byte := pixelUnpack p ++ [255]

/-- Drop alpha (R128). -/
def pixelDropAlpha (p : Pixel) : List Byte := [p 0, p 1, p 2]

/-- Add alpha (R129). -/
def pixelAddAlpha (p : Pixel) : List Byte := [p 0, p 1, p 2, 255]

/-- Replicate (R130). -/
def pixelReplicate (p : Pixel) : List Byte := [p 0, p 0, p 0]

/-- Replicate with alpha (R131). -/
def pixelReplicateAlpha (p : Pixel) : List Byte := [p 0, p 0, p 0, 255]

/-- A byte as a rational (41_yuv.md R164). -/
def ratOfByte (b : Byte) : Rat := (b.toNat : Rat)

/-- The exact forward values: the matrix `M_f`, then 128 added to U and V (41_yuv.md R160, R162). -/
def yuvExactY (r g b : Rat) : Rat := 299 / 1000 * r + 587 / 1000 * g + 114 / 1000 * b
def yuvExactU (r g b : Rat) : Rat := -(16874 / 100000) * r - 33126 / 100000 * g + 5 / 10 * b + 128
def yuvExactV (r g b : Rat) : Rat := 5 / 10 * r - 41869 / 100000 * g - 8131 / 100000 * b + 128

/-- The exact inverse values: the matrix `M_i`, then the offsets (41_yuv.md R161, R163). -/
def rgbExactR (y u v : Rat) : Rat :=
  y - 715 / 100000000 * u + 140199757 / 100000000 * v - 17945477266 / 100000000
def rgbExactG (y u v : Rat) : Rat :=
  y - 34413314 / 100000000 * u - 71413803 / 100000000 * v + 13545870972 / 100000000
def rgbExactB (y u v : Rat) : Rat :=
  y + 177200258 / 100000000 * u + 154 / 10000000 * v - 22681830444 / 100000000

/-- Forward (41_yuv.md R160): each exact value quantised once, at the end (R164). -/
def pixelToYuv (q : Quantiser) (p : Pixel) : List Byte :=
  let r := ratOfByte (p 0)
  let g := ratOfByte (p 1)
  let b := ratOfByte (p 2)
  [quantise q (yuvExactY r g b), quantise q (yuvExactU r g b), quantise q (yuvExactV r g b)]

/-- Inverse (41_yuv.md R161). -/
def pixelFromYuv (q : Quantiser) (p : Pixel) : List Byte :=
  let y := ratOfByte (p 0)
  let u := ratOfByte (p 1)
  let v := ratOfByte (p 2)
  [quantise q (rgbExactR y u v), quantise q (rgbExactG y u v), quantise q (rgbExactB y u v)]

/-- A defined conversion path: bytes per pixel of source and target, and the pixel function (R122). -/
structure Path where
  srcBpp : Nat
  dstBpp : Nat
  pixel : Pixel → List Byte

/-- The path between two formats with S = 0: the matrix of R121, none in a `U` cell. -/
def plainPath (q : Quantiser) : ColorFormat → ColorFormat → Option Path
  | .gray8, .gray8 => some ⟨1, 1, pixelCopy 1⟩
  | .gray8, .rgb888 => some ⟨1, 3, pixelReplicate⟩
  | .gray8, .rgba8888 => some ⟨1, 4, pixelReplicateAlpha⟩
  | .rgb565, .rgb565 => some ⟨2, 2, pixelCopy 2⟩
  | .rgb565, .rgb888 => some ⟨2, 3, pixelUnpack⟩
  | .rgb565, .rgba8888 => some ⟨2, 4, pixelUnpackAlpha⟩
  | .rgb888, .rgb565 => some ⟨3, 2, pixelPack⟩
  | .rgb888, .rgb888 => some ⟨3, 3, pixelCopy 3⟩
  | .rgb888, .rgba8888 => some ⟨3, 4, pixelAddAlpha⟩
  | .rgb888, .yuv888 => some ⟨3, 3, pixelToYuv q⟩
  | .rgba8888, .rgb888 => some ⟨4, 3, pixelDropAlpha⟩
  | .rgba8888, .rgba8888 => some ⟨4, 4, pixelCopy 4⟩
  | .yuv888, .rgb888 => some ⟨3, 3, pixelFromYuv q⟩
  | .yuv888, .yuv888 => some ⟨3, 3, pixelCopy 3⟩
  | .gray8, .rgb565 | .gray8, .yuv888 => none
  | .rgb565, .gray8 | .rgb565, .yuv888 => none
  | .rgb888, .gray8 => none
  | .rgba8888, .gray8 | .rgba8888, .rgb565 | .rgba8888, .yuv888 => none
  | .yuv888, .gray8 | .yuv888, .rgb565 | .yuv888, .rgba8888 => none

/-- The path with S = 1: the source bytes are B, G, R; two pairs only (R94, R121, R149). -/
def reversedPath : ColorFormat → ColorFormat → Option Path
  | .rgb888, .rgb565 => some ⟨3, 2, pixelPackBgr⟩
  | .rgb888, .rgb888 => some ⟨3, 3, pixelSwap⟩
  | _, _ => none

/-- The path of `CVT(from, s, to)`; a tag that names no format has none (R121, R148, 30_encoding.md R98). -/
def cvtPath (q : Quantiser) (src : Option ColorFormat) (s : Bool) (dst : Option ColorFormat) : Option Path :=
  match src, dst with
  | some f, some t => if s then reversedPath f t else plainPath q f t
  | _, _ => none

/-- `CVT(from, s, to)`, the checks in the order of R120 steps 1 to 4, then the result of step 6. -/
def cvtPlan (p : Params) (o : Operands) (src : Option ColorFormat) (s : Bool) (dst : Option ColorFormat) :
    Except ErrKind Plan :=
  let w := o.srcW.toNat
  let h := o.srcH.toNat
  let len := o.srcLen.toNat
  if !fits p len then .error .resourceLimit
  else match cvtPath p.q8 src s dst with
    | none => .error .unsupportedConversion
    | some path =>
      if w = 0 ∨ h = 0 then .error .shapeMismatch
      else if len ≠ w * h * path.srcBpp then .error .shapeMismatch
      else .ok
        { diag := false, outW := w, outH := h, outCh := path.dstBpp, metadata := 0
          bytes := mapPixels path.srcBpp path.pixel (w * h) }

/-- The command `CVT(from, s, to)` (R120). -/
def cvt (src : Option ColorFormat) (s : Bool) (dst : Option ColorFormat) (st : State) :
    Host.Outcome State Fault Refusal :=
  finish st (cvtPlan st.params st.ops src s dst)

/-! One meaning per row of the table (30_encoding.md R99); each is R120 at the row's fields. -/

/-- `CVT.GRAY8.GRAY8` (R123). -/
def execCvtGray8Gray8 (s : State) : Host.Outcome State Fault Refusal :=
  cvt (some .gray8) false (some .gray8) s

/-- `CVT.GRAY8.RGB565` (R137). -/
def execCvtGray8Rgb565 (s : State) : Host.Outcome State Fault Refusal :=
  cvt (some .gray8) false (some .rgb565) s

/-- `CVT.GRAY8.RGB888` (R130). -/
def execCvtGray8Rgb888 (s : State) : Host.Outcome State Fault Refusal :=
  cvt (some .gray8) false (some .rgb888) s

/-- `CVT.GRAY8.RGBA8888` (R131). -/
def execCvtGray8Rgba8888 (s : State) : Host.Outcome State Fault Refusal :=
  cvt (some .gray8) false (some .rgba8888) s

/-- `CVT.GRAY8.YUV888` (R138). -/
def execCvtGray8Yuv888 (s : State) : Host.Outcome State Fault Refusal :=
  cvt (some .gray8) false (some .yuv888) s

/-- `CVT.RGB565.GRAY8` (R139). -/
def execCvtRgb565Gray8 (s : State) : Host.Outcome State Fault Refusal :=
  cvt (some .rgb565) false (some .gray8) s

/-- `CVT.RGB565.RGB565` (R133). -/
def execCvtRgb565Rgb565 (s : State) : Host.Outcome State Fault Refusal :=
  cvt (some .rgb565) false (some .rgb565) s

/-- `CVT.RGB565.RGB888` (R125). -/
def execCvtRgb565Rgb888 (s : State) : Host.Outcome State Fault Refusal :=
  cvt (some .rgb565) false (some .rgb888) s

/-- `CVT.RGB565.RGBA8888` (R132). -/
def execCvtRgb565Rgba8888 (s : State) : Host.Outcome State Fault Refusal :=
  cvt (some .rgb565) false (some .rgba8888) s

/-- `CVT.RGB565.YUV888` (R140). -/
def execCvtRgb565Yuv888 (s : State) : Host.Outcome State Fault Refusal :=
  cvt (some .rgb565) false (some .yuv888) s

/-- `CVT.RGB888.GRAY8` (R141). -/
def execCvtRgb888Gray8 (s : State) : Host.Outcome State Fault Refusal :=
  cvt (some .rgb888) false (some .gray8) s

/-- `CVT.RGB888.RGB565` (R124). -/
def execCvtRgb888Rgb565 (s : State) : Host.Outcome State Fault Refusal :=
  cvt (some .rgb888) false (some .rgb565) s

/-- `CVT.RGB888.RGB888` (R134). -/
def execCvtRgb888Rgb888 (s : State) : Host.Outcome State Fault Refusal :=
  cvt (some .rgb888) false (some .rgb888) s

/-- `CVT.RGB888.RGBA8888` (R129). -/
def execCvtRgb888Rgba8888 (s : State) : Host.Outcome State Fault Refusal :=
  cvt (some .rgb888) false (some .rgba8888) s

/-- `CVT.RGB888.YUV888` (41_yuv.md R160). -/
def execCvtRgb888Yuv888 (s : State) : Host.Outcome State Fault Refusal :=
  cvt (some .rgb888) false (some .yuv888) s

/-- `CVT.RGBA8888.GRAY8` (R142). -/
def execCvtRgba8888Gray8 (s : State) : Host.Outcome State Fault Refusal :=
  cvt (some .rgba8888) false (some .gray8) s

/-- `CVT.RGBA8888.RGB565` (R143). -/
def execCvtRgba8888Rgb565 (s : State) : Host.Outcome State Fault Refusal :=
  cvt (some .rgba8888) false (some .rgb565) s

/-- `CVT.RGBA8888.RGB888` (R128). -/
def execCvtRgba8888Rgb888 (s : State) : Host.Outcome State Fault Refusal :=
  cvt (some .rgba8888) false (some .rgb888) s

/-- `CVT.RGBA8888.RGBA8888` (R135). -/
def execCvtRgba8888Rgba8888 (s : State) : Host.Outcome State Fault Refusal :=
  cvt (some .rgba8888) false (some .rgba8888) s

/-- `CVT.RGBA8888.YUV888` (R144). -/
def execCvtRgba8888Yuv888 (s : State) : Host.Outcome State Fault Refusal :=
  cvt (some .rgba8888) false (some .yuv888) s

/-- `CVT.YUV888.GRAY8` (R145). -/
def execCvtYuv888Gray8 (s : State) : Host.Outcome State Fault Refusal :=
  cvt (some .yuv888) false (some .gray8) s

/-- `CVT.YUV888.RGB565` (R146). -/
def execCvtYuv888Rgb565 (s : State) : Host.Outcome State Fault Refusal :=
  cvt (some .yuv888) false (some .rgb565) s

/-- `CVT.YUV888.RGB888` (41_yuv.md R161). -/
def execCvtYuv888Rgb888 (s : State) : Host.Outcome State Fault Refusal :=
  cvt (some .yuv888) false (some .rgb888) s

/-- `CVT.YUV888.RGBA8888` (R147). -/
def execCvtYuv888Rgba8888 (s : State) : Host.Outcome State Fault Refusal :=
  cvt (some .yuv888) false (some .rgba8888) s

/-- `CVT.YUV888.YUV888` (R136). -/
def execCvtYuv888Yuv888 (s : State) : Host.Outcome State Fault Refusal :=
  cvt (some .yuv888) false (some .yuv888) s

/-- `CVT.BGR888.RGB565` (R126). -/
def execCvtBgr888Rgb565 (s : State) : Host.Outcome State Fault Refusal :=
  cvt (some .rgb888) true (some .rgb565) s

/-- `CVT.BGR888.RGB888` (R127). -/
def execCvtBgr888Rgb888 (s : State) : Host.Outcome State Fault Refusal :=
  cvt (some .rgb888) true (some .rgb888) s

/-- `CVT.S1.<other>`: S = 1 outside the two accepted pairs (R149). -/
def execCvtS1Other (src dst : Tag) (s : State) : Host.Outcome State Fault Refusal :=
  cvt (formatOfTag src) true (formatOfTag dst) s

/-- `CVT.<tag 5..7>`: an unrecognized tag (R148, 30_encoding.md R98). -/
def execCvtTag (src dst : Tag) (s : State) : Host.Outcome State Fault Refusal :=
  cvt (formatOfTag src) false (formatOfTag dst) s

end Sys2Proof.Machine
end

