-- ==== Sys2Proof/Machine/Dispatcher.lean ====
section
/-!
DEFINITION. The Channel Dispatcher, command DISP (spec/42_dispatch.md R180 to R192).
-/
namespace Sys2Proof.Machine

/-- A canonical format: what the Dispatcher can be asked for (R180 step 3). -/
def isCanonical : Option ColorFormat → Bool
  | some .rgb888 => true
  | some .rgba8888 => true
  | _ => false

/-- `DISP(ch, to)`, steps 1 to 7 of R180. Step 7 is CVT on the same inputs, whose own checks cannot fail here. -/
def dispPlan (p : Params) (o : Operands) (ch : Byte) (dst : Option ColorFormat) : Except ErrKind Plan :=
  let w := o.srcW.toNat
  let h := o.srcH.toNat
  let len := o.srcLen.toNat
  if !fits p len then .error .resourceLimit
  else match formatOfChannels ch with
    | none => .error .unsupportedChannelCount
    | some src =>
      if !isCanonical dst then .error .unsupportedConversion
      else if w = 0 ∨ h = 0 then .error .shapeMismatch
      else if len ≠ w * h * ch.toNat then .error .shapeMismatch
      else cvtPlan p o (some src) false dst

/-- The command `DISP(ch, to)` (R180). -/
def disp (ch : Byte) (dst : Option ColorFormat) (s : State) : Host.Outcome State Fault Refusal :=
  finish s (dispPlan s.params s.ops ch dst)

/-! One meaning per row of the table (30_encoding.md R99). -/

/-- `DISP.RGB888 ch=1` (R182). -/
def execDispRgb888Ch1 (s : State) : Host.Outcome State Fault Refusal :=
  disp 1 (some .rgb888) s

/-- `DISP.RGBA8888 ch=1` (R183). -/
def execDispRgba8888Ch1 (s : State) : Host.Outcome State Fault Refusal :=
  disp 1 (some .rgba8888) s

/-- `DISP.RGB888 ch=2` (R184). -/
def execDispRgb888Ch2 (s : State) : Host.Outcome State Fault Refusal :=
  disp 2 (some .rgb888) s

/-- `DISP.RGBA8888 ch=2` (R185). -/
def execDispRgba8888Ch2 (s : State) : Host.Outcome State Fault Refusal :=
  disp 2 (some .rgba8888) s

/-- `DISP.RGB888 ch=3` (R186). -/
def execDispRgb888Ch3 (s : State) : Host.Outcome State Fault Refusal :=
  disp 3 (some .rgb888) s

/-- `DISP.RGBA8888 ch=3` (R187). -/
def execDispRgba8888Ch3 (s : State) : Host.Outcome State Fault Refusal :=
  disp 3 (some .rgba8888) s

/-- `DISP.RGB888 ch=4` (R188). -/
def execDispRgb888Ch4 (s : State) : Host.Outcome State Fault Refusal :=
  disp 4 (some .rgb888) s

/-- `DISP.RGBA8888 ch=4` (R189). -/
def execDispRgba8888Ch4 (s : State) : Host.Outcome State Fault Refusal :=
  disp 4 (some .rgba8888) s

/-- `DISP.<other> ch=1`: a target that is not canonical (R191). -/
def execDispOtherCh1 (target : Tag) (s : State) : Host.Outcome State Fault Refusal :=
  disp 1 (formatOfTag target) s

/-- `DISP.<other> ch=2`: a target that is not canonical (R191). -/
def execDispOtherCh2 (target : Tag) (s : State) : Host.Outcome State Fault Refusal :=
  disp 2 (formatOfTag target) s

/-- `DISP.<other> ch=3`: a target that is not canonical (R191). -/
def execDispOtherCh3 (target : Tag) (s : State) : Host.Outcome State Fault Refusal :=
  disp 3 (formatOfTag target) s

/-- `DISP.<other> ch=4`: a target that is not canonical (R191). -/
def execDispOtherCh4 (target : Tag) (s : State) : Host.Outcome State Fault Refusal :=
  disp 4 (formatOfTag target) s

/-- `DISP.<any> ch=<other>`: a channel count outside 1..4 (R190). -/
def execDispAnyChOther (target : Tag) (ch : Byte) (s : State) : Host.Outcome State Fault Refusal :=
  disp ch (formatOfTag target) s

end Sys2Proof.Machine
end

