-- ==== Sys2Proof/Machine/Geometry.lean ====
section
/-!
DEFINITION. The Geometric Transform, commands RESIZE and CROP (spec/43_geometry.md R200 to R227).
-/
namespace Sys2Proof.Machine

/-- What the target dimensions ask for (R201). -/
inductive ResizeDims where
  | identity
  | scaled (nw nh : Nat)
deriving DecidableEq, Repr

/-- Target dimensions, the products and the floor division in `Nat` (R201 to R205). -/
def resizeDims (ow oh w h : Nat) : ResizeDims :=
  if w = 0 ∧ h = 0 then .identity
  else if w = 0 then .scaled (ow * h / oh) h
  else if h = 0 then .scaled w (oh * w / ow)
  else .scaled w h

/-- Reference instantiation for Nearest: output pixel `(r, c)` is source pixel `(r*oh div nh, c*ow div nw)`
(R210). PRESUMED by the spec from general knowledge (log 16). -/
def nearestByte (img : List Byte) (b ow oh nw nh r c k : Nat) : Byte :=
  imageByte img ow b (r * oh / nh) (c * ow / nw) k

/-- The source coordinate of an output coordinate, pixel centres aligned, clamped to the image: `fy`, `fx` of
R211 for source size `o` and target size `n`. -/
def centreCoord (o n i : Nat) : Rat :=
  min ((o : Rat) - 1) (max 0 ((2 * (i : Rat) + 1) * o / (2 * n) - 1 / 2))

/-- `floor` of a coordinate that is not negative (R211). -/
def coordFloor (x : Rat) : Nat := x.floor.toNat

/-- The exact value of reference Bilinear: the weighted mean of four source bytes (R211). -/
def bilinearExact (img : List Byte) (b ow oh nw nh r c k : Nat) : Rat :=
  let fy := centreCoord oh nh r
  let fx := centreCoord ow nw c
  let y0 := coordFloor fy
  let x0 := coordFloor fx
  let y1 := min (y0 + 1) (oh - 1)
  let x1 := min (x0 + 1) (ow - 1)
  let wy := fy - y0
  let wx := fx - x0
  let srcByte := fun y x => ratOfByte (imageByte img ow b y x k)
  let top := (1 - wx) * srcByte y0 x0 + wx * srcByte y0 x1
  let bot := (1 - wx) * srcByte y1 x0 + wx * srcByte y1 x1
  (1 - wy) * top + wy * bot

/-- Reference instantiation for Bilinear, through `Q8` (R211). PRESUMED by the spec from general knowledge
(log 16). -/
def bilinearByte (q : Quantiser) (img : List Byte) (b ow oh nw nh r c k : Nat) : Byte :=
  quantise q (bilinearExact img b ow oh nw nh r c k)

/-- `Resample(kind, b, img, ow, oh, nw, nh)`: `nw * nh * b` bytes whose values are the free value of the open
parameter, or the references' (R208, R210, R211, R212). -/
def resample (p : Params) (kind : InterpKind) (b : Nat) (img : List Byte) (ow oh nw nh : Nat) : List Byte :=
  match p.resample, kind with
  | .unspecified, _ => (List.range (nw * nh * b)).map (Config.resampleByte ⟨kind, b, img, ow, oh, nw, nh⟩)
  | .reference, .nearest => buildImage nw nh b (nearestByte img b ow oh nw nh)
  | .reference, .bilinear => buildImage nw nh b (bilinearByte p.q8 img b ow oh nw nh)

/-- The prologue of both commands, steps 1 to 4 of R200: the error, or `(iw, ih, b)`. -/
def prologue (p : Params) (o : Operands) (fmt : Option ColorFormat) : Except ErrKind (Nat × Nat × Nat) :=
  let iw := o.srcW.toNat
  let ih := o.srcH.toNat
  let len := o.srcLen.toNat
  if !fits p len then .error .resourceLimit
  else match fmt with
    | none => .error .unsupportedConversion
    | some f =>
      if !isCanonical (some f) then .error .unsupportedConversion
      else if iw = 0 ∨ ih = 0 then .error .shapeMismatch
      else if len ≠ iw * ih * bpp f then .error .shapeMismatch
      else .ok (iw, ih, bpp f)

/-- The no-op result: a copy of the source image with its dimensions (R225; `diag`, 60_exceptions.md R267). -/
def noOpPlan (diag : Bool) (iw ih b : Nat) : Plan :=
  { diag, outW := iw, outH := ih, outCh := b, metadata := 0, bytes := id }

/-- `RESIZE(fmt, kind)`, the steps of R207. -/
def resizePlan (p : Params) (o : Operands) (fmt : Option ColorFormat) (kind : InterpKind) :
    Except ErrKind Plan :=
  match prologue p o fmt with
  | .error e => .error e
  | .ok (iw, ih, b) =>
    match resizeDims iw ih o.argW.toNat o.argH.toNat with
    | .identity => .ok (noOpPlan false iw ih b)
    | .scaled nw nh =>
      if nw = 0 ∨ nh = 0 then .ok (noOpPlan true iw ih b)
      else if 2 ^ 32 ≤ nw ∨ 2 ^ 32 ≤ nh ∨ !fits p (nw * nh * b) then .error .resourceLimit
      else .ok
        { diag := false, outW := nw, outH := nh, outCh := b, metadata := 0
          bytes := fun img => resample p kind b img iw ih nw nh }

/-- The sub-rectangle of an image of width `iw` (R222). -/
def cropBytes (iw b cx cy w h : Nat) (img : List Byte) : List Byte :=
  buildImage w h b fun r c k => imageByte img iw b (cy + r) (cx + c) k

/-- `CROP(fmt)`, the steps of R220; the sums are in `Nat` and cannot wrap. -/
def cropPlan (p : Params) (o : Operands) (fmt : Option ColorFormat) : Except ErrKind Plan :=
  match prologue p o fmt with
  | .error e => .error e
  | .ok (iw, ih, b) =>
    let cx := o.argX.toNat
    let cy := o.argY.toNat
    let w := o.argW.toNat
    let h := o.argH.toNat
    if w = 0 ∨ iw < w ∨ h = 0 ∨ ih < h then .ok (noOpPlan true iw ih b)
    else if iw < cx + w ∨ ih < cy + h then .ok (noOpPlan true iw ih b)
    else .ok
      { diag := false, outW := w, outH := h, outCh := b, metadata := 0
        bytes := cropBytes iw b cx cy w h }

/-- The command `RESIZE(fmt, kind)` (R207). -/
def resize (fmt : Option ColorFormat) (kind : InterpKind) (s : State) : Host.Outcome State Fault Refusal :=
  finish s (resizePlan s.params s.ops fmt kind)

/-- The command `CROP(fmt)` (R220). -/
def crop (fmt : Option ColorFormat) (s : State) : Host.Outcome State Fault Refusal :=
  finish s (cropPlan s.params s.ops fmt)

/-! One meaning per row of the table (30_encoding.md R99). -/

/-- `RESIZE.NN.RGB888` (R207). -/
def execResizeNnRgb888 (s : State) : Host.Outcome State Fault Refusal :=
  resize (some .rgb888) .nearest s

/-- `RESIZE.BL.RGB888` (R207). -/
def execResizeBlRgb888 (s : State) : Host.Outcome State Fault Refusal :=
  resize (some .rgb888) .bilinear s

/-- `RESIZE.NN.RGBA8888` (R207). -/
def execResizeNnRgba8888 (s : State) : Host.Outcome State Fault Refusal :=
  resize (some .rgba8888) .nearest s

/-- `RESIZE.BL.RGBA8888` (R207). -/
def execResizeBlRgba8888 (s : State) : Host.Outcome State Fault Refusal :=
  resize (some .rgba8888) .bilinear s

/-- `RESIZE.<NN|BL>.<other>`: a format that is not canonical (R226). -/
def execResizeOther (fmt : Tag) (kind : InterpKind) (s : State) : Host.Outcome State Fault Refusal :=
  resize (formatOfTag fmt) kind s

/-- `CROP.RGB888` (R220). -/
def execCropRgb888 (s : State) : Host.Outcome State Fault Refusal :=
  crop (some .rgb888) s

/-- `CROP.RGBA8888` (R220). -/
def execCropRgba8888 (s : State) : Host.Outcome State Fault Refusal :=
  crop (some .rgba8888) s

/-- `CROP.<other>`: a format that is not canonical (R226). -/
def execCropOther (fmt : Tag) (s : State) : Host.Outcome State Fault Refusal :=
  crop (formatOfTag fmt) s

end Sys2Proof.Machine
end

