-- ==== Sys2Proof/Machine/Pipeline.lean ====
section
/-!
DEFINITION. The Conversion Pipeline, command PIPE (spec/44_pipeline.md R240 to R248), and a word that is no
command (spec/30_encoding.md R97).
-/
namespace Sys2Proof.Machine

/-- The canonical format of a requested output (R242). -/
def canonicalOf (out : Option ColorFormat) : ColorFormat :=
  if out = some .rgba8888 then .rgba8888 else .rgb888

/-- Stage 2 applied to the canonical buffer `B1`: the exact resize, only when both target dimensions are not 0
(R243). -/
def pipeStage2 (p : Params) (kind : InterpKind) (b w h tw th : Nat) (b1 : List Byte) : List Byte :=
  if tw ≠ 0 ∧ th ≠ 0 then resample p kind b b1 w h tw th else b1

/-- `PIPE(ch, out, kind)`, the steps of R240 in order; the pair check of stage 3 is step 9 (R244). The path of
stage 1 always exists: its target is canonical (R241). -/
def pipePlan (p : Params) (o : Operands) (ch : Byte) (out : Option ColorFormat) (kind : InterpKind) :
    Except ErrKind Plan :=
  let w := o.srcW.toNat
  let h := o.srcH.toNat
  let len := o.srcLen.toNat
  let tw := o.argW.toNat
  let th := o.argH.toNat
  if !fits p len then .error .resourceLimit
  else match formatOfChannels ch with
    | none => .error .unsupportedChannelCount
    | some src =>
      if ch = 1 ∧ out = some .rgb565 then .error .unsupportedConversion
      else
        let c := canonicalOf out
        if w = 0 ∨ h = 0 then .error .shapeMismatch
        else if len ≠ w * h * ch.toNat then .error .shapeMismatch
        else if !fits p (w * h * bpp c) then .error .resourceLimit
        else if (tw ≠ 0 ∧ th ≠ 0) ∧ !fits p (tw * th * bpp c) then .error .resourceLimit
        else match cvtPath p.q8 (some src) false (some c), cvtPath p.q8 (some c) false out with
          | some stage1, some stage3 =>
            let w2 := if tw ≠ 0 ∧ th ≠ 0 then tw else w
            let h2 := if tw ≠ 0 ∧ th ≠ 0 then th else h
            .ok
              { diag := false, outW := w2, outH := h2, outCh := stage3.dstBpp, metadata := o.metaIn
                bytes := fun img =>
                  mapPixels (bpp c) stage3.pixel (w2 * h2)
                    (pipeStage2 p kind (bpp c) w h tw th (mapPixels stage1.srcBpp stage1.pixel (w * h) img)) }
          | _, _ => .error .unsupportedConversion

/-- The command `PIPE(ch, out, kind)` (R240). -/
def pipe (ch : Byte) (out : Option ColorFormat) (kind : InterpKind) (s : State) :
    Host.Outcome State Fault Refusal :=
  finish s (pipePlan s.params s.ops ch out kind)

/-! One meaning per row of the table (30_encoding.md R99). -/

/-- `PIPE.RGB565.NN ch=<n>` (R240). -/
def execPipeRgb565Nn (ch : Byte) (s : State) : Host.Outcome State Fault Refusal :=
  pipe ch (some .rgb565) .nearest s

/-- `PIPE.RGB565.BL ch=<n>` (R240). -/
def execPipeRgb565Bl (ch : Byte) (s : State) : Host.Outcome State Fault Refusal :=
  pipe ch (some .rgb565) .bilinear s

/-- `PIPE.RGB888.NN ch=<n>` (R240). -/
def execPipeRgb888Nn (ch : Byte) (s : State) : Host.Outcome State Fault Refusal :=
  pipe ch (some .rgb888) .nearest s

/-- `PIPE.RGB888.BL ch=<n>` (R240). -/
def execPipeRgb888Bl (ch : Byte) (s : State) : Host.Outcome State Fault Refusal :=
  pipe ch (some .rgb888) .bilinear s

/-- `PIPE.RGBA8888.NN ch=<n>` (R240). -/
def execPipeRgba8888Nn (ch : Byte) (s : State) : Host.Outcome State Fault Refusal :=
  pipe ch (some .rgba8888) .nearest s

/-- `PIPE.RGBA8888.BL ch=<n>` (R240). -/
def execPipeRgba8888Bl (ch : Byte) (s : State) : Host.Outcome State Fault Refusal :=
  pipe ch (some .rgba8888) .bilinear s

/-- `PIPE.YUV888.NN ch=<n>` (R240). -/
def execPipeYuv888Nn (ch : Byte) (s : State) : Host.Outcome State Fault Refusal :=
  pipe ch (some .yuv888) .nearest s

/-- `PIPE.YUV888.BL ch=<n>` (R240). -/
def execPipeYuv888Bl (ch : Byte) (s : State) : Host.Outcome State Fault Refusal :=
  pipe ch (some .yuv888) .bilinear s

/-- `PIPE.GRAY8.NN ch=<n>` (R244). -/
def execPipeGray8Nn (ch : Byte) (s : State) : Host.Outcome State Fault Refusal :=
  pipe ch (some .gray8) .nearest s

/-- `PIPE.GRAY8.BL ch=<n>` (R244). -/
def execPipeGray8Bl (ch : Byte) (s : State) : Host.Outcome State Fault Refusal :=
  pipe ch (some .gray8) .bilinear s

/-- `PIPE.<tag 5..7>.<NN|BL> ch=<n>`: an output tag that names no format (R244). -/
def execPipeTag (out : Tag) (kind : InterpKind) (ch : Byte) (s : State) : Host.Outcome State Fault Refusal :=
  pipe ch (formatOfTag out) kind s

/-- `ILLEGAL`: a word that is no command completes at once with IllegalCommand and reads nothing
(30_encoding.md R97, 60_exceptions.md R265). -/
def execIllegal (_word : Word) (s : State) : Host.Outcome State Fault Refusal :=
  finish s (.error .illegalCommand)

end Sys2Proof.Machine
end

