-- ==== Sys2Proof/Machine/Dispatch.lean ====
section
/-!
DEFINITION. One arm per command (spec/30_encoding.md R99).
-/
namespace Sys2Proof.Machine

def exec (i : Instr) (s : State) : Host.Outcome State Fault Refusal :=
  match i with
  | .cvtGray8Gray8 => Sys2Proof.Machine.execCvtGray8Gray8 s
  | .cvtGray8Rgb565 => Sys2Proof.Machine.execCvtGray8Rgb565 s
  | .cvtGray8Rgb888 => Sys2Proof.Machine.execCvtGray8Rgb888 s
  | .cvtGray8Rgba8888 => Sys2Proof.Machine.execCvtGray8Rgba8888 s
  | .cvtGray8Yuv888 => Sys2Proof.Machine.execCvtGray8Yuv888 s
  | .cvtRgb565Gray8 => Sys2Proof.Machine.execCvtRgb565Gray8 s
  | .cvtRgb565Rgb565 => Sys2Proof.Machine.execCvtRgb565Rgb565 s
  | .cvtRgb565Rgb888 => Sys2Proof.Machine.execCvtRgb565Rgb888 s
  | .cvtRgb565Rgba8888 => Sys2Proof.Machine.execCvtRgb565Rgba8888 s
  | .cvtRgb565Yuv888 => Sys2Proof.Machine.execCvtRgb565Yuv888 s
  | .cvtRgb888Gray8 => Sys2Proof.Machine.execCvtRgb888Gray8 s
  | .cvtRgb888Rgb565 => Sys2Proof.Machine.execCvtRgb888Rgb565 s
  | .cvtRgb888Rgb888 => Sys2Proof.Machine.execCvtRgb888Rgb888 s
  | .cvtRgb888Rgba8888 => Sys2Proof.Machine.execCvtRgb888Rgba8888 s
  | .cvtRgb888Yuv888 => Sys2Proof.Machine.execCvtRgb888Yuv888 s
  | .cvtRgba8888Gray8 => Sys2Proof.Machine.execCvtRgba8888Gray8 s
  | .cvtRgba8888Rgb565 => Sys2Proof.Machine.execCvtRgba8888Rgb565 s
  | .cvtRgba8888Rgb888 => Sys2Proof.Machine.execCvtRgba8888Rgb888 s
  | .cvtRgba8888Rgba8888 => Sys2Proof.Machine.execCvtRgba8888Rgba8888 s
  | .cvtRgba8888Yuv888 => Sys2Proof.Machine.execCvtRgba8888Yuv888 s
  | .cvtYuv888Gray8 => Sys2Proof.Machine.execCvtYuv888Gray8 s
  | .cvtYuv888Rgb565 => Sys2Proof.Machine.execCvtYuv888Rgb565 s
  | .cvtYuv888Rgb888 => Sys2Proof.Machine.execCvtYuv888Rgb888 s
  | .cvtYuv888Rgba8888 => Sys2Proof.Machine.execCvtYuv888Rgba8888 s
  | .cvtYuv888Yuv888 => Sys2Proof.Machine.execCvtYuv888Yuv888 s
  | .cvtBgr888Rgb565 => Sys2Proof.Machine.execCvtBgr888Rgb565 s
  | .cvtBgr888Rgb888 => Sys2Proof.Machine.execCvtBgr888Rgb888 s
  | .cvtS1Other src dst => Sys2Proof.Machine.execCvtS1Other src dst s
  | .cvtTag src dst => Sys2Proof.Machine.execCvtTag src dst s
  | .dispRgb888Ch1 => Sys2Proof.Machine.execDispRgb888Ch1 s
  | .dispRgba8888Ch1 => Sys2Proof.Machine.execDispRgba8888Ch1 s
  | .dispRgb888Ch2 => Sys2Proof.Machine.execDispRgb888Ch2 s
  | .dispRgba8888Ch2 => Sys2Proof.Machine.execDispRgba8888Ch2 s
  | .dispRgb888Ch3 => Sys2Proof.Machine.execDispRgb888Ch3 s
  | .dispRgba8888Ch3 => Sys2Proof.Machine.execDispRgba8888Ch3 s
  | .dispRgb888Ch4 => Sys2Proof.Machine.execDispRgb888Ch4 s
  | .dispRgba8888Ch4 => Sys2Proof.Machine.execDispRgba8888Ch4 s
  | .dispOtherCh1 target => Sys2Proof.Machine.execDispOtherCh1 target s
  | .dispOtherCh2 target => Sys2Proof.Machine.execDispOtherCh2 target s
  | .dispOtherCh3 target => Sys2Proof.Machine.execDispOtherCh3 target s
  | .dispOtherCh4 target => Sys2Proof.Machine.execDispOtherCh4 target s
  | .dispAnyChOther target ch => Sys2Proof.Machine.execDispAnyChOther target ch s
  | .resizeNnRgb888 => Sys2Proof.Machine.execResizeNnRgb888 s
  | .resizeBlRgb888 => Sys2Proof.Machine.execResizeBlRgb888 s
  | .resizeNnRgba8888 => Sys2Proof.Machine.execResizeNnRgba8888 s
  | .resizeBlRgba8888 => Sys2Proof.Machine.execResizeBlRgba8888 s
  | .resizeOther fmt kind => Sys2Proof.Machine.execResizeOther fmt kind s
  | .cropRgb888 => Sys2Proof.Machine.execCropRgb888 s
  | .cropRgba8888 => Sys2Proof.Machine.execCropRgba8888 s
  | .cropOther fmt => Sys2Proof.Machine.execCropOther fmt s
  | .pipeRgb565Nn ch => Sys2Proof.Machine.execPipeRgb565Nn ch s
  | .pipeRgb565Bl ch => Sys2Proof.Machine.execPipeRgb565Bl ch s
  | .pipeRgb888Nn ch => Sys2Proof.Machine.execPipeRgb888Nn ch s
  | .pipeRgb888Bl ch => Sys2Proof.Machine.execPipeRgb888Bl ch s
  | .pipeRgba8888Nn ch => Sys2Proof.Machine.execPipeRgba8888Nn ch s
  | .pipeRgba8888Bl ch => Sys2Proof.Machine.execPipeRgba8888Bl ch s
  | .pipeYuv888Nn ch => Sys2Proof.Machine.execPipeYuv888Nn ch s
  | .pipeYuv888Bl ch => Sys2Proof.Machine.execPipeYuv888Bl ch s
  | .pipeGray8Nn ch => Sys2Proof.Machine.execPipeGray8Nn ch s
  | .pipeGray8Bl ch => Sys2Proof.Machine.execPipeGray8Bl ch s
  | .pipeTag out kind ch => Sys2Proof.Machine.execPipeTag out kind ch s
  | .illegal word => Sys2Proof.Machine.execIllegal word s

end Sys2Proof.Machine
end

