-- ==== Sys2Proof/Machine/HostBus.lean ====
section
/-!
DEFINITION. What each host access does (spec/10_state.md R24 to R32, R36, R37, spec/20_memory.md R65 to R67,
spec/30_encoding.md R101), and how the next command comes to run.
-/
namespace Sys2Proof.Machine

/-- The host's write of a word to CMD: CMD holds it and the command it encodes is executed (10_state.md R29,
R33). -/
def runCommandWord (w : Word) (s : State) : Host.Outcome State Fault Refusal :=
  exec (decode w) { s with cmd := w }

/-- A host write of a register word (10_state.md R25, R29). -/
def hostWriteReg (index : Nat) (v : Word) (s : State) : Host.Outcome State Fault Refusal :=
  match regAt index with
  | some .cmd => runCommandWord v s
  | some r => .next { s with ops := writeOperand s.ops v r }
  | none => .next s

/-- The value a host read of a register word returns; 0 where there is no register (10_state.md R25). -/
def regValue (index : Nat) (s : State) : Nat :=
  match regAt index with
  | some r => readReg s r
  | none => 0

/-- Hand a value to the host (log 7). -/
def deliver (v : Nat) (s : State) : State := { s with reads := v :: s.reads }

/-- A host write of a SRC byte; at an index from CAP on it is ignored (20_memory.md R66). -/
def hostWriteSrc (a : Nat) (b : Byte) (s : State) : State :=
  if inCap s.params a then { s with src := writeByte s.src a b } else s

/-- A host read of a SRC byte: 0 from CAP on (20_memory.md R66); a byte never written faults (10_state.md R31,
92_eei_decisions.md D40, log 5). -/
def hostReadSrc (a : Nat) (s : State) : Host.Outcome State Fault Refusal :=
  if inCap s.params a then
    match readByte s.src a with
    | some b => .next (deliver b.toNat s)
    | none => .fault .unwrittenSrcByte
  else .next (deliver 0 s)

/-- The value of a DST byte below CAP and the state after looking: a byte outside the valid window is a free
value, a new one each time and of this engine alone (10_state.md R32, 93_implementation_defined.md U7, U8, U10).
DESIGN CHOICE (log 6): the value is indexed by the engine's number and its count of such reads, so that the spec's
silence on the bytes of two engines (20_memory.md R72, 60_exceptions.md R280) stays a silence in the model. -/
def takeDst (a : Nat) (s : State) : Byte × State :=
  match readByte s.dst a with
  | some b => (b, s)
  | none => (Config.freeByte s.params.engine s.fresh, { s with fresh := s.fresh + 1 })

/-- A host read of a DST byte: 0 from CAP on (20_memory.md R66). -/
def hostReadDst (a : Nat) (s : State) : State :=
  if inCap s.params a then deliver (takeDst a s).1.toNat (takeDst a s).2 else deliver 0 s

/-- Copy DST bytes 0 .. n−1 to SRC, in order (30_encoding.md R101, `mv`). -/
def copyBytes : Nat → State → State
  | 0, s => s
  | n + 1, s =>
    let t := copyBytes n s
    hostWriteSrc n (takeDst n t).1 (takeDst n t).2

/-- `mv SRC, DST`: the bytes, then SRC_LEN, SRC_W, SRC_H (30_encoding.md R101). An OUT_LEN that does not fit
SRC_LEN is refused (log 9). -/
def hostMove (s : State) : Host.Outcome State Fault Refusal :=
  if s.res.outLen < 2 ^ 32 then
    let t := copyBytes s.res.outLen s
    .next { t with
      ops := { t.ops with srcLen := BitVec.ofNat 32 s.res.outLen, srcW := s.res.outW, srcH := s.res.outH } }
  else .refused .moveTooLong

/-- A reset: every register 0, both memories unspecified (10_state.md R36, R37). The parameters are fixed for
life, and the host's own side goes on (log 15). -/
def hostReset (s : State) : State :=
  { s with cmd := 0, ops := Operands.reset, res := Results.reset, src := [], dst := [] }

/-- One host access (10_state.md R24). -/
def perform (a : HostAction) (s : State) : Host.Outcome State Fault Refusal :=
  match a with
  | .writeReg i v => hostWriteReg i v s
  | .readReg i => .next (deliver (regValue i s) s)
  | .writeSrc a b => .next (hostWriteSrc a b s)
  | .readSrc a => hostReadSrc a s
  | .writeDst _ _ => .next s
  | .readDst a => .next (hostReadDst a s)
  | .copyDstToSrc => hostMove s
  | .reset => .next (hostReset s)

/-- The next action of the script; at its end the engine is idle and nothing changes (10_state.md R27, R36;
70_reset_and_hazards.md R315, log 4). -/
def performNext (s : State) : Host.Outcome State Fault Refusal :=
  match s.script with
  | [] => .next s
  | a :: rest => perform a { s with script := rest }

/-- The host action that hands the engine a command word: the write of CMD (10_state.md R29). -/
def goWord (w : Word) : HostAction := .writeReg 0 w

/-- The command word of `nbits` bits `w`; the bits above are 0. -/
def commandWord (nbits w : Nat) : Word := BitVec.ofNat 32 (w % 2 ^ nbits)

end Sys2Proof.Machine
end

