-- ==== Sys2Proof/Machine/Step.lean ====
section
/-!
DEFINITION. One step of the machine: the next host action, which a command word's write makes a whole command
(spec/10_state.md R27, R33).
-/
namespace Sys2Proof.Machine

/-- One step: the next action of the host script; nothing when there is none. -/
def step (s : State) : Host.Outcome State Fault Refusal := performNext s

/-- The state whose very next step writes the given word to CMD: the write stands at the head of the script.
The engine fetches nothing; the host hands it each command (10_state.md R27, log 4). -/
def State.withFetchWord (s : State) (nbits w : Nat) : State :=
  { s with script := goWord (commandWord nbits w) :: s.script }

end Sys2Proof.Machine
end

