-- ==== Sys2Proof/Machine/HostScript.lean ====
section
/-!
DEFINITION. The document's entry points as host scripts, what the host takes as their result, and the run of a
script (spec/30_encoding.md R101, spec/70_reset_and_hazards.md R315).
-/
namespace Sys2Proof.Machine

/-- `ld SRC, a, bytes`. -/
def loadBytes (a : Nat) : List Byte → List HostAction
  | [] => []
  | b :: bs => .writeSrc a b :: loadBytes (a + 1) bs

/-- `rd DST, a, n`. -/
def readDstRange (a n : Nat) : List HostAction := (List.range n).map fun i => .readDst (a + i)

/-- The word index of each operand register (10_state.md R25). -/
def wrSrcW (v : Word) : HostAction := .writeReg 2 v
def wrSrcH (v : Word) : HostAction := .writeReg 3 v
def wrSrcLen (v : Word) : HostAction := .writeReg 4 v
def wrArgX (v : Word) : HostAction := .writeReg 5 v
def wrArgY (v : Word) : HostAction := .writeReg 6 v
def wrArgW (v : Word) : HostAction := .writeReg 7 v
def wrArgH (v : Word) : HostAction := .writeReg 8 v
def wrMetaIn (v : Word) : HostAction := .writeReg 9 v

/-- Load an image and its shape. There is no such script for a buffer of 2^32 bytes or more: `wr SRC_LEN` takes a
value that fits the register (00_scope.md R8) and the spec names no other. DESIGN CHOICE (log 9), safe. -/
def loadImage (buffer : List Byte) (w h : Word) : Option (List HostAction) :=
  if buffer.length < 2 ^ 32 then
    some (loadBytes 0 buffer ++ [wrSrcLen (BitVec.ofNat 32 buffer.length), wrSrcW w, wrSrcH h])
  else none

/-- Load an image, then write the further operands and the command word. -/
def entryScript (buffer : List Byte) (w h : Word) (operands : List HostAction) (command : Fields) :
    Option (List HostAction) :=
  (loadImage buffer w h).map (· ++ operands ++ [goWord (assemble command)])

/-- The bytes `DST[0 .. OUT_LEN)`. -/
def outputBytes (s : State) : Option (List Byte) := readRange s.dst 0 s.res.outLen

/-- The result of a conversion or a dispatch: the output bytes, or the kind of STATUS.ERR. -/
def entryResult (s : State) : Except (Option ErrKind) (Option (List Byte)) :=
  if statusErr s.res.status = 0 then .ok (outputBytes s) else .error (kindOfCode (statusErr s.res.status))

/-- The result of a resize or a crop: the image and the diagnostic. It has no error arm; a hard failure leaves the
empty image, and its code stays in STATUS (90_conflicts.md C6). -/
structure ImageResult where
  width : Word
  height : Word
  bytes : Option (List Byte)
  diag : Bool
deriving DecidableEq, Repr

/-- The tuple that the pipeline returns (44_pipeline.md R245), and STATUS.ERR. -/
structure PipelineResult where
  width : Word
  height : Word
  channelCount : Word
  metadata : Word
  buffer : Option (List Byte)
  err : BitVec 4
deriving DecidableEq, Repr

/-- `(OUT_W, OUT_H, DST[0 .. OUT_LEN))` and STATUS.DIAG. -/
def imageResult (s : State) : ImageResult :=
  { width := s.res.outW, height := s.res.outH, bytes := outputBytes s, diag := statusDiag s.res.status }

/-- `(OUT_W, OUT_H, OUT_CH, META_OUT, DST[0 .. OUT_LEN))` and STATUS.ERR. -/
def pipelineResult (s : State) : PipelineResult :=
  { width := s.res.outW, height := s.res.outH, channelCount := s.res.outCh, metadata := s.res.metaOut
    buffer := outputBytes s, err := statusErr s.res.status }

/-- An entry point: the host script it expands to, none where there is none, and what the host takes as its result
from the state at the script's end. -/
structure EntryPoint (α : Type) where
  script : Option (List HostAction)
  result : State → α

/-- `convert(buffer, width, height, from, to)`. -/
def convertEntry (buffer : List Byte) (w h : Word) (src dst : ColorFormat) :
    EntryPoint (Except (Option ErrKind) (Option (List Byte))) :=
  { script := entryScript buffer w h [] (cvtFields (tagOfFormat src) 0 (tagOfFormat dst))
    result := entryResult }

/-- `dispatch_to_canonical(buffer, width, height, channel_count, target)`. -/
def dispatchEntry (buffer : List Byte) (w h : Word) (ch : Byte) (target : ColorFormat) :
    EntryPoint (Except (Option ErrKind) (Option (List Byte))) :=
  { script := entryScript buffer w h [] (dispFields ch (tagOfFormat target))
    result := entryResult }

/-- `resize(image, width, height, interpolation)`. -/
def resizeEntry (image : List Byte) (iw ih : Word) (fmt : ColorFormat) (w h : Word) (kind : InterpKind) :
    EntryPoint ImageResult :=
  { script := entryScript image iw ih [wrArgW w, wrArgH h] (resizeFields (tagOfFormat fmt) kind)
    result := imageResult }

/-- `crop(image, x, y, width, height)`. -/
def cropEntry (image : List Byte) (iw ih : Word) (fmt : ColorFormat) (x y w h : Word) : EntryPoint ImageResult :=
  { script := entryScript image iw ih [wrArgW w, wrArgH h, wrArgX x, wrArgY y] (cropFields (tagOfFormat fmt))
    result := imageResult }

/-- The pipeline; a target size of 0 is "not supplied". -/
def pipelineEntry (buffer : List Byte) (w h metaIn : Word) (ch : Byte) (out : ColorFormat) (tw th : Word)
    (kind : InterpKind) : EntryPoint PipelineResult :=
  { script := entryScript buffer w h [wrMetaIn metaIn, wrArgW tw, wrArgH th] (pipeFields ch (tagOfFormat out) kind)
    result := pipelineResult }

/-- A run of a whole host script (70_reset_and_hazards.md R315): one step for each action. -/
def runScript (script : List HostAction) (s : State) : Host.Outcome State Fault Refusal :=
  Sys2Proof.core.run script.length { s with script := script }

end Sys2Proof.Machine
end

