-- ==== Sys2Proof/Machine/Engines.lean ====
section
/-!
DEFINITION. Several independent engines (spec/20_memory.md R72, spec/60_exceptions.md R280): a list of states,
one of which takes a step at a time. `N_ENGINES` is the length of the list.
-/
namespace Sys2Proof.Machine

/-- `N_ENGINES` instances, each with its own registers, SRC and DST (60_exceptions.md R280). -/
abbrev Fleet := List State

/-- No two engines have one number, so that their unspecified DST bytes are unrelated (log 6, log 14). -/
abbrev Fleet.wf (f : Fleet) : Prop := (f.map fun s => s.params.engine).Nodup

/-- Engines of the given parameters, numbered by position from `n` on, each just out of reset
(60_exceptions.md R280, 10_state.md R36). -/
def Fleet.ofParams (n : Nat) : List Params → Fleet
  | [] => []
  | p :: ps => { State.reset with params := { p with engine := n } } :: Fleet.ofParams (n + 1) ps

/-- Engine `n` takes one step; where there is no such engine nothing happens. DESIGN CHOICE (log 14), safe: when
the step of one engine faults or is refused, so does the fleet, and no engine takes a further step. The spec says
of such a read only that a model faults (70_reset_and_hazards.md R301); its other engines would go on. -/
def fleetStep (n : Nat) (f : Fleet) : Host.Outcome Fleet Fault Refusal :=
  match f[n]? with
  | none => .next f
  | some s =>
    match step s with
    | .next t => .next (f.set n t)
    | .fault e => .fault e
    | .refused r => .refused r

end Sys2Proof.Machine
end

