-- ==== Sys2Proof/Safety.lean ====
section
/-!
DEFINITION. What a sound state and a safe run are: the invariant of the machine, and the condition under which a
command cannot fault (spec/10_state.md R22, R28, R32, R34, spec/70_reset_and_hazards.md R301).
-/
namespace Sys2Proof.Machine

/-- A legal STATUS: the values that R28 lists. DONE = 0 is the reset value; a failed command has DIAG = 0. -/
def legalStatus (st : Word) : Prop :=
  st = 0 ∨ (∃ e, st = statusOfError e) ∨ (∃ diag, st = statusOfSuccess diag)

/-- The output registers describe DST: the window is `DST[0 .. OUT_LEN)` (R32), OUT_LEN is
`OUT_W * OUT_H * OUT_CH` (R22, R34), it fits CAP, and after an error or a reset all of them are 0. -/
structure WindowSound (s : State) : Prop where
  window : s.dst.map Prod.fst = List.range s.res.outLen
  shape : s.res.outLen = s.res.outW.toNat * s.res.outH.toNat * s.res.outCh.toNat
  fitsCap : fits s.params s.res.outLen = true
  emptyUnlessOk : statusErr s.res.status ≠ 0 ∨ statusDone s.res.status = false →
    s.res.outW = 0 ∧ s.res.outH = 0 ∧ s.res.outCh = 0 ∧ s.res.outLen = 0 ∧ s.res.metaOut = 0

/-- The invariant of the machine. -/
structure Inv (s : State) : Prop where
  srcWf : s.src.wf
  srcInCap : ∀ a b, readByte s.src a = some b → inCap s.params a = true
  status : legalStatus s.res.status
  windowSound : WindowSound s

/-- Every byte of `SRC[0 .. SRC_LEN)` has been written (70_reset_and_hazards.md R301). -/
def SourceWritten (s : State) : Prop :=
  ∀ a, a < s.ops.srcLen.toNat → ∃ b, readByte s.src a = some b

/-- A safe step: it neither faults nor is refused. -/
def SafeStep (s : State) : Prop := ∃ t, step s = .next t

end Sys2Proof.Machine
end

