-- ==== Sys2Proof/Certificates/Slice0/Obligations.lean ====
section
/-!
DEFINITION. The statements for the provers, each from a rule of the spec. Hypotheses are on the state and the operands
alone; the formulas are the spec's own, over natural numbers, not the model's functions, wherever the spec
gives one.
-/
open Sys2Proof Sys2Proof.Machine

/-! ## The words the statements share -/

namespace Sys2Proof.Claim

/-- SRC byte `a`; only used below SRC_LEN of a written source. -/
def srcByte (s : State) (a : Nat) : Byte := (readByte s.src a).getD 0

/-- SRC byte `a` as a number. -/
def srcNat (s : State) (a : Nat) : Nat := (srcByte s a).toNat

/-- Width, height and length of the source, the four arguments, as numbers. -/
abbrev srcW (s : State) : Nat := s.ops.srcW.toNat
abbrev srcH (s : State) : Nat := s.ops.srcH.toNat
abbrev srcLen (s : State) : Nat := s.ops.srcLen.toNat
abbrev argX (s : State) : Nat := s.ops.argX.toNat
abbrev argY (s : State) : Nat := s.ops.argY.toNat
abbrev argW (s : State) : Nat := s.ops.argW.toNat
abbrev argH (s : State) : Nat := s.ops.argH.toNat

/-- The source is a well-shaped image of `b` bytes per pixel that lies in SRC (10_state.md R22). -/
structure Shaped (s : State) (b : Nat) : Prop where
  fitsIn : fits s.params (srcLen s) = true
  width : srcW s ≠ 0
  height : srcH s ≠ 0
  length : srcLen s = srcW s * srcH s * b

/-- What the host must have done before a command that reads its source (70_reset_and_hazards.md R301), and an output
of `n` bytes fits. -/
structure Ready (s : State) (b n : Nat) : Prop where
  shaped : Shaped s b
  written : SourceWritten s
  fitsOut : fits s.params n = true

/-- Everything that no command changes: CMD, the operand registers, every byte of SRC, the parameters, the host's
side (10_state.md R23, R25). -/
structure Kept (s t : State) : Prop where
  cmd : t.cmd = s.cmd
  ops : t.ops = s.ops
  src : t.src = s.src
  srcBytes : ∀ a, readByte t.src a = readByte s.src a
  params : t.params = s.params
  script : t.script = s.script
  reads : t.reads = s.reads
  fresh : t.fresh = s.fresh

/-- The success arm of the commit (10_state.md R34): STATUS, the five output registers, the valid window of DST, no
value outside it, and all the rest kept. -/
structure Succeeds (s t : State) (diag : Bool) (w h ch : Nat) (m : Word) : Prop where
  status : t.res.status = if diag then 0x80000100 else 0x80000000
  outW : t.res.outW.toNat = w
  outH : t.res.outH.toNat = h
  outCh : t.res.outCh.toNat = ch
  outLen : t.res.outLen = w * h * ch
  metaOut : t.res.metaOut = m
  inside : ∀ a, a < w * h * ch → ∃ b, readByte t.dst a = some b
  outside : ∀ a, w * h * ch ≤ a → readByte t.dst a = none
  kept : Kept s t

/-- The error arm of the commit (10_state.md R34, 60_exceptions.md R266), with the code as a number. -/
structure Fails (s t : State) (code : Nat) : Prop where
  status : t.res.status.toNat = 2 ^ 31 + code
  outW : t.res.outW = 0
  outH : t.res.outH = 0
  outCh : t.res.outCh = 0
  outLen : t.res.outLen = 0
  metaOut : t.res.metaOut = 0
  dst : ∀ a, readByte t.dst a = none
  kept : Kept s t

/-- Command `i` completes from `s` with the error `code`. -/
def EndsWith (i : Instr) (s : State) (code : Nat) : Prop := ∃ t, exec i s = .next t ∧ Fails s t code

/-- DST holds the bytes `bs` from address `a` on. -/
def DstHolds (t : State) (a : Nat) (bs : List Byte) : Prop :=
  ∀ k, k < bs.length → readByte t.dst (a + k) = some (bs.getD k 0)

/-- Command `i` completes from `s` as a pixelwise conversion: `ch` bytes per output pixel, and output pixel `p` is
`f p`. -/
def Converts (i : Instr) (s : State) (ch : Nat) (f : Nat → List Byte) : Prop :=
  ∃ t, exec i s = .next t ∧ Succeeds s t false (srcW s) (srcH s) ch 0 ∧
    ∀ p, p < srcW s * srcH s → (f p).length = ch ∧ DstHolds t (p * ch) (f p)

/-- The byte of a number below 256. -/
def byte (n : Nat) : Byte := BitVec.ofNat 8 n

/-- The two bytes of the Rgb565 word of three channel numbers, low byte first (40_codec.md R124). -/
def packed (r g b : Nat) : List Byte :=
  let w := r / 8 * 2048 + g / 4 * 32 + b / 8
  [byte (w % 256), byte (w / 256)]

/-- The three channels of the Rgb565 word `lo + 256 * hi` (40_codec.md R125). -/
def unpacked (lo hi : Nat) : List Byte :=
  let w := lo + 256 * hi
  [byte (w / 2048 * 8), byte (w / 32 % 64 * 4), byte (w % 32 * 8)]

/-- The forward pixel function under quantiser `q` (41_yuv.md R160). -/
def toYuv (q : Quantiser) (r g b : Rat) : List Byte :=
  [quantise q (299 / 1000 * r + 587 / 1000 * g + 114 / 1000 * b),
   quantise q (-(16874 / 100000) * r - 33126 / 100000 * g + 1 / 2 * b + 128),
   quantise q (1 / 2 * r - 41869 / 100000 * g - 8131 / 100000 * b + 128)]

/-- The inverse pixel function under quantiser `q` (41_yuv.md R161). -/
def fromYuv (q : Quantiser) (y u v : Rat) : List Byte :=
  [quantise q (y - 715 / 10 ^ 8 * u + 140199757 / 10 ^ 8 * v - 17945477266 / 10 ^ 8),
   quantise q (y - 34413314 / 10 ^ 8 * u - 71413803 / 10 ^ 8 * v + 13545870972 / 10 ^ 8),
   quantise q (y + 177200258 / 10 ^ 8 * u + 1540 / 10 ^ 8 * v - 22681830444 / 10 ^ 8)]

/-- The canonical pixel of source pixel `p` for channel count `ch`: three bytes, or four with `alpha`
(42_dispatch.md R181). -/
def canonicalPixel (s : State) (ch : Nat) (alpha : Bool) (p : Nat) : List Byte :=
  let at' := fun k => srcByte s (p * ch + k)
  let rgb :=
    if ch = 1 then [at' 0, at' 0, at' 0]
    else if ch = 2 then unpacked (at' 0).toNat (at' 1).toNat
    else [at' 0, at' 1, at' 2]
  if alpha then rgb ++ [if ch = 4 then at' 3 else 255] else rgb

/-- What stage 3 of the pipeline makes of a canonical pixel (44_pipeline.md R244). -/
def repacked (q : Quantiser) (out : ColorFormat) (px : List Byte) : List Byte :=
  let n := fun k => (px.getD k 0).toNat
  match out with
  | .rgb565 => packed (n 0) (n 1) (n 2)
  | .yuv888 => toYuv q (n 0) (n 1) (n 2)
  | _ => px

/-- Pixel `p` of an image of `b` bytes per pixel. -/
def pixelBytes (img : List Byte) (b p : Nat) : List Byte := (img.drop (p * b)).take b

/-- The CVT rows that convert, with the bytes per pixel of source and output (40_codec.md R121). -/
def convertingRows : List (Instr × Nat × Nat) :=
  [(.cvtGray8Gray8, 1, 1), (.cvtGray8Rgb888, 1, 3), (.cvtGray8Rgba8888, 1, 4),
   (.cvtRgb565Rgb565, 2, 2), (.cvtRgb565Rgb888, 2, 3), (.cvtRgb565Rgba8888, 2, 4)] ++
  [(.cvtRgb888Rgb565, 3, 2), (.cvtRgb888Rgb888, 3, 3), (.cvtRgb888Rgba8888, 3, 4), (.cvtRgb888Yuv888, 3, 3),
   (.cvtRgba8888Rgb888, 4, 3), (.cvtRgba8888Rgba8888, 4, 4)] ++
  [(.cvtYuv888Rgb888, 3, 3), (.cvtYuv888Yuv888, 3, 3), (.cvtBgr888Rgb565, 3, 2), (.cvtBgr888Rgb888, 3, 3)]

/-- The DISP rows that convert: channel count, whether the target is Rgba8888, the CVT row of R181. -/
def dispatchRows : List (Instr × Nat × Bool × Instr) :=
  [(.dispRgb888Ch1, 1, false, .cvtGray8Rgb888), (.dispRgba8888Ch1, 1, true, .cvtGray8Rgba8888),
   (.dispRgb888Ch2, 2, false, .cvtRgb565Rgb888), (.dispRgba8888Ch2, 2, true, .cvtRgb565Rgba8888),
   (.dispRgb888Ch3, 3, false, .cvtRgb888Rgb888), (.dispRgba8888Ch3, 3, true, .cvtRgb888Rgba8888),
   (.dispRgb888Ch4, 4, false, .cvtRgba8888Rgb888), (.dispRgba8888Ch4, 4, true, .cvtRgba8888Rgba8888)]

/-- The RESIZE rows on a canonical image: kind and bytes per pixel (43_geometry.md R207). -/
def resizeRows : List (Instr × InterpKind × Nat) :=
  [(.resizeNnRgb888, .nearest, 3), (.resizeBlRgb888, .bilinear, 3), (.resizeNnRgba8888, .nearest, 4),
   (.resizeBlRgba8888, .bilinear, 4)]

/-- The CROP rows on a canonical image: bytes per pixel (43_geometry.md R220). -/
def cropRows : List (Instr × Nat) := [(.cropRgb888, 3), (.cropRgba8888, 4)]

/-- The PIPE rows that can succeed: the row of a channel count, kind, output, and its bytes per pixel. -/
def pipeRowsOf (ch : Byte) : List (Instr × InterpKind × ColorFormat × Nat) :=
  [(.pipeRgb565Nn ch, .nearest, .rgb565, 2), (.pipeRgb565Bl ch, .bilinear, .rgb565, 2),
   (.pipeRgb888Nn ch, .nearest, .rgb888, 3), (.pipeRgb888Bl ch, .bilinear, .rgb888, 3),
   (.pipeRgba8888Nn ch, .nearest, .rgba8888, 4), (.pipeRgba8888Bl ch, .bilinear, .rgba8888, 4),
   (.pipeYuv888Nn ch, .nearest, .yuv888, 3), (.pipeYuv888Bl ch, .bilinear, .yuv888, 3)]

/-- The PIPE rows whose stage 3 has no path (44_pipeline.md R244). -/
def pipeDeadRows (ch : Byte) (out : Tag) (kind : InterpKind) : List Instr :=
  [.pipeGray8Nn ch, .pipeGray8Bl ch, .pipeTag out kind ch]

/-- Bytes per pixel of the canonical format of an output (44_pipeline.md R242). -/
def canonicalBpp (out : ColorFormat) : Nat := if out = .rgba8888 then 4 else 3

/-- The target dimensions of a resize (43_geometry.md R201 to R205); `(0, 0)` is not asked here. -/
def targetDims (ow oh w h : Nat) : Nat × Nat :=
  if w = 0 then (ow * h / oh, h) else if h = 0 then (w, oh * w / ow) else (w, h)

/-- Reference Bilinear's exact value, as R211 writes it. -/
def bilinearValue (s : State) (b ow oh nw nh r c k : Nat) : Rat :=
  let fy : Rat := min (oh - 1) (max 0 ((2 * r + 1) * oh / (2 * nh) - 1 / 2))
  let fx : Rat := min (ow - 1) (max 0 ((2 * c + 1) * ow / (2 * nw) - 1 / 2))
  let y0 := fy.floor.toNat
  let x0 := fx.floor.toNat
  let y1 := min (y0 + 1) (oh - 1)
  let x1 := min (x0 + 1) (ow - 1)
  let px := fun y x : Nat => (srcNat s ((y * ow + x) * b + k) : Rat)
  let top := (1 - (fx - x0)) * px y0 x0 + (fx - x0) * px y0 x1
  let bot := (1 - (fx - x0)) * px y1 x0 + (fx - x0) * px y1 x1
  (1 - (fy - y0)) * top + (fy - y0) * bot

/-- Two states agree on the registers that `i` reads (10_state.md R26) and, if it reads SRC_LEN, on
`SRC[0 .. SRC_LEN)`; they have the same parameters. -/
def AgreeOn (i : Instr) (s s' : State) : Prop :=
  s.params = s'.params ∧
  (usesSource i → s.ops.srcW = s'.ops.srcW ∧ s.ops.srcH = s'.ops.srcH ∧ s.ops.srcLen = s'.ops.srcLen ∧
    ∀ a, a < srcLen s → readByte s.src a = readByte s'.src a) ∧
  (usesArgSize i → s.ops.argW = s'.ops.argW ∧ s.ops.argH = s'.ops.argH) ∧
  (usesArgPlace i → s.ops.argX = s'.ops.argX ∧ s.ops.argY = s'.ops.argY) ∧
  (usesMeta i → s.ops.metaIn = s'.ops.metaIn)
where
  op (i : Instr) : Nat := (encode i).toNat % 16
  usesSource (i : Instr) : Prop := ∀ w, i ≠ .illegal w
  usesArgSize (i : Instr) : Prop := usesSource i ∧ (op i = 3 ∨ op i = 4 ∨ op i = 5)
  usesArgPlace (i : Instr) : Prop := usesSource i ∧ op i = 4
  usesMeta (i : Instr) : Prop := usesSource i ∧ op i = 5

/-- `k` steps of the machine. -/
def runs (k : Nat) (s : State) : Host.Outcome State Fault Refusal := Sys2Proof.core.run k s

end Sys2Proof.Claim

open Sys2Proof.Claim

/-! ## Reset -/

/-- R36: every register is 0 and no byte of SRC or DST holds a value. -/
def Obligations.ResetLeavesRegistersZeroAndMemoriesUnspecified : Prop :=
  State.reset.cmd = 0 ∧
  (State.reset.ops = ⟨0, 0, 0, 0, 0, 0, 0, 0⟩) ∧
  (State.reset.res = ⟨0, 0, 0, 0, 0, 0⟩) ∧
  (∀ a, readByte State.reset.src a = none) ∧ (∀ a, readByte State.reset.dst a = none) ∧
  Sys2Proof.core.reset = State.reset

/-- The host's reset action (R37, R300; the model's own form of it is log 15): the same register values from every
state, both memories without values; the parameters and the host's side go on. -/
def Obligations.HostResetClearsTheEngine : Prop :=
  ∀ (s : State) (rest : List HostAction), s.script = .reset :: rest →
    ∃ t, step s = .next t ∧ (∀ r, readReg t r = 0) ∧
      (∀ a, readByte t.src a = none) ∧ (∀ a, readByte t.dst a = none) ∧
      t.params = s.params ∧ t.script = rest ∧ t.reads = s.reads ∧ t.fresh = s.fresh

/-! ## Encoding -/

/-- A few words, field by field as R90 draws them, and the commands they stand for (R99, R97). -/
def Obligations.WrittenOutWordsDecode : Prop :=
  decode 0b00000000_00000000_00_00_0_001_0_010_0001 = .cvtRgb888Rgb565 ∧
  decode 0b00000000_00000000_00_00_0_010_1_010_0001 = .cvtBgr888Rgb888 ∧
  decode 0b00000000_00000010_00_00_0_011_0_000_0010 = .dispRgba8888Ch2 ∧
  decode 0b00000000_00000000_00_01_0_000_0_011_0011 = .resizeBlRgba8888 ∧
  decode 0b00000000_00000000_00_00_0_000_0_010_0100 = .cropRgb888 ∧
  decode 0b00000000_00000100_00_01_0_011_0_000_0101 = .pipeRgba8888Bl 4 ∧
  decode 0 = .illegal 0

/-- Every well-formed command is what its own word decodes to. -/
def Obligations.DecodeInvertsEncode : Prop :=
  ∀ i : Instr, WellFormed i → decode (encode i) = i

/-- Every one of the 2^32 words decodes to a well-formed command whose word it is: no bit is dropped and no two words
share a command. -/
def Obligations.EncodeInvertsDecode : Prop :=
  ∀ w : Word, WellFormed (decode w) ∧ encode (decode w) = w

/-- The words that are no command are exactly R103 (a): OP = 0 or OP ≥ 6; a zero bit set; a field the operation does not
use that is not 0; IK ≥ 2 in RESIZE or PIPE. Fields by division, as R7 reads bits. -/
def Obligations.IllegalExactlyTheReservedSpace : Prop :=
  ∀ w : Word,
    let n := w.toNat
    let op := n % 16
    let src := n / 16 % 8
    let s := n / 128 % 2
    let dst := n / 256 % 8
    let ik := n / 4096 % 4
    let ch := n / 65536 % 256
    (decode w = .illegal w ↔
      op = 0 ∨ 6 ≤ op ∨ n / 2048 % 2 ≠ 0 ∨ n / 16384 % 4 ≠ 0 ∨ n / 16777216 ≠ 0 ∨
      (op = 1 ∧ (ik ≠ 0 ∨ ch ≠ 0)) ∨
      (op = 2 ∧ (src ≠ 0 ∨ s ≠ 0 ∨ ik ≠ 0)) ∨
      (op = 3 ∧ (s ≠ 0 ∨ dst ≠ 0 ∨ ch ≠ 0 ∨ 2 ≤ ik)) ∨
      (op = 4 ∧ (s ≠ 0 ∨ dst ≠ 0 ∨ ik ≠ 0 ∨ ch ≠ 0)) ∨
      (op = 5 ∧ (src ≠ 0 ∨ s ≠ 0 ∨ 2 ≤ ik)))

/-- R99: a word selects the first row, in the table's order, with `c & mask = match`; it is the row of the command the
word decodes to. -/
def Obligations.DecodedRowIsTheFirstMatchingRow : Prop :=
  ∀ w : Word, firstRow w = some (rowOf (decode w))

/-! ## One step -/

/-- A write of CMD runs the decoded command on the state in which CMD holds the word and the host's write is done; with
no host action left nothing changes (the model's own idle step, log 4). -/
def Obligations.StepRunsTheDecodedCommand : Prop :=
  (∀ (s : State) (w : Word) (rest : List HostAction), s.script = .writeReg 0 w :: rest →
    step s = exec (decode w) { s with cmd := w, script := rest }) ∧
  (∀ (s : State) (w : Word), step (s.withFetchWord 32 w.toNat) = exec (decode w) { s with cmd := w }) ∧
  (∀ s : State, s.script = [] → step s = .next s)

/-- The host's write of a register word: an operand register takes the value and no other register changes; a read-only
register or an offset from 0x3C on (index 15) changes nothing (R25). -/
def Obligations.HostWritesOperandRegistersOnly : Prop :=
  ∀ (s : State) (index : Nat) (v : Word) (rest : List HostAction),
    s.script = .writeReg index v :: rest → index ≠ 0 →
    ∃ t, step s = .next t ∧
      (∀ j r, regAt j = some r →
        readReg t r = if j = index ∧ 2 ≤ index ∧ index ≤ 9 then v.toNat else readReg s r) ∧
      t.src = s.src ∧ t.dst = s.dst ∧ t.params = s.params ∧ t.script = rest ∧ t.reads = s.reads ∧
      t.fresh = s.fresh

/-- The register map of R25, offset 4 times the index, and the host's read of a register word: its current value, 0 where
there is no register, and nothing changes but the host's own record (log 7). -/
def Obligations.HostReadsRegistersAtTheirOffsets : Prop :=
  ([0x00, 0x04, 0x08, 0x0C, 0x10, 0x14, 0x18, 0x1C, 0x20, 0x24, 0x28, 0x2C, 0x30, 0x34, 0x38].map
      (fun offset => regAt (offset / 4)) =
    [some .cmd, some .status, some .srcW, some .srcH, some .srcLen, some .argX, some .argY, some .argW,
     some .argH, some .metaIn, some .outW, some .outH, some .outCh, some .outLen, some .metaOut]) ∧
  ∀ (s : State) (index : Nat) (rest : List HostAction), s.script = .readReg index :: rest →
    (∀ r, regAt index = some r →
      step s = .next { s with script := rest, reads := readReg s r :: s.reads }) ∧
    (15 ≤ index → regAt index = none ∧ step s = .next { s with script := rest, reads := 0 :: s.reads })

/-- The host's SRC accesses (R31, 20_memory.md R66): a write below CAP puts the byte there and nowhere else, from CAP on it
is ignored; a read below CAP returns the byte last written, from CAP on 0. -/
def Obligations.HostReachesSrcByteByByte : Prop :=
  (∀ (s : State) (a : Nat) (b : Byte) (rest : List HostAction), s.script = .writeSrc a b :: rest →
    ∃ t, step s = .next t ∧
      (∀ x, readByte t.src x = if x = a ∧ inCap s.params a = true then some b else readByte s.src x) ∧
      t.cmd = s.cmd ∧ t.ops = s.ops ∧ t.res = s.res ∧ t.dst = s.dst ∧ t.params = s.params ∧
      t.script = rest ∧ t.reads = s.reads ∧ t.fresh = s.fresh) ∧
  (∀ (s : State) (a : Nat) (rest : List HostAction), s.script = .readSrc a :: rest →
    (∀ b, inCap s.params a = true → readByte s.src a = some b →
      step s = .next { s with script := rest, reads := b.toNat :: s.reads }) ∧
    (inCap s.params a = false → step s = .next { s with script := rest, reads := 0 :: s.reads }) ∧
    (inCap s.params a = true → readByte s.src a = none → step s = .fault .unwrittenSrcByte))

/-- The host's DST accesses (R32, R66, U7, U8): a write is ignored; a read in the valid window returns the byte; a read
outside it returns some byte, the free value of log 6; from CAP on it returns 0. -/
def Obligations.HostOnlyReadsDst : Prop :=
  (∀ (s : State) (a : Nat) (b : Byte) (rest : List HostAction), s.script = .writeDst a b :: rest →
    step s = .next { s with script := rest }) ∧
  (∀ (s : State) (a : Nat) (rest : List HostAction), s.script = .readDst a :: rest →
    (∀ b, inCap s.params a = true → readByte s.dst a = some b →
      step s = .next { s with script := rest, reads := b.toNat :: s.reads }) ∧
    (inCap s.params a = true → readByte s.dst a = none →
      ∃ v : Byte, step s =
        .next { s with script := rest, reads := v.toNat :: s.reads, fresh := s.fresh + 1 }) ∧
    (inCap s.params a = false → step s = .next { s with script := rest, reads := 0 :: s.reads }))

/-- `mv SRC, DST` (30_encoding.md R101) in a state that meets the invariant: SRC holds the output bytes in front and is
otherwise as it was, SRC_LEN, SRC_W and SRC_H are OUT_LEN, OUT_W and OUT_H; an OUT_LEN that SRC_LEN cannot hold is
refused (log 9). -/
def Obligations.MoveMakesTheOutputTheNextSource : Prop :=
  ∀ (s : State) (rest : List HostAction), Inv s → s.script = .copyDstToSrc :: rest →
    (s.res.outLen < 2 ^ 32 →
      ∃ t, step s = .next t ∧
        (∀ a, readByte t.src a = if a < s.res.outLen then readByte s.dst a else readByte s.src a) ∧
        t.ops.srcLen.toNat = s.res.outLen ∧ t.ops.srcW = s.res.outW ∧ t.ops.srcH = s.res.outH ∧
        t.ops.argX = s.ops.argX ∧ t.ops.argY = s.ops.argY ∧ t.ops.argW = s.ops.argW ∧
        t.ops.argH = s.ops.argH ∧ t.ops.metaIn = s.ops.metaIn ∧
        t.cmd = s.cmd ∧ t.res = s.res ∧ t.dst = s.dst ∧ t.params = s.params ∧ t.script = rest ∧
        t.reads = s.reads ∧ t.fresh = s.fresh) ∧
    (2 ^ 32 ≤ s.res.outLen → step s = .refused .moveTooLong)

/-! ## CVT -/

/-- R123, R133 to R136: the same-format conversions copy every byte. -/
def Obligations.SameFormatConversionsCopy : Prop :=
  ∀ row ∈ [(Instr.cvtGray8Gray8, 1), (.cvtRgb565Rgb565, 2), (.cvtRgb888Rgb888, 3), (.cvtRgba8888Rgba8888, 4),
      (.cvtYuv888Yuv888, 3)],
    ∀ s : State, Ready s row.2 (srcW s * srcH s * row.2) →
      ∃ t, exec row.1 s = .next t ∧ Succeeds s t false (srcW s) (srcH s) row.2 0 ∧
        ∀ a, a < srcLen s → readByte t.dst a = some (srcByte s a)

/-- R124: pack. -/
def Obligations.PackTruncatesToRgb565LowByteFirst : Prop :=
  decode 0x00000121 = .cvtRgb888Rgb565 ∧ ∀ s : State, Ready s 3 (srcW s * srcH s * 2) →
    Converts .cvtRgb888Rgb565 s 2 fun p =>
      packed (srcNat s (p * 3)) (srcNat s (p * 3 + 1)) (srcNat s (p * 3 + 2))

/-- R126: pack from the bytes B, G, R. -/
def Obligations.PackFromReversedBytes : Prop :=
  decode 0x000001A1 = .cvtBgr888Rgb565 ∧ ∀ s : State, Ready s 3 (srcW s * srcH s * 2) →
    Converts .cvtBgr888Rgb565 s 2 fun p =>
      packed (srcNat s (p * 3 + 2)) (srcNat s (p * 3 + 1)) (srcNat s (p * 3))

/-- R125: unpack. -/
def Obligations.UnpackZeroExtendsAndShifts : Prop :=
  decode 0x00000211 = .cvtRgb565Rgb888 ∧ ∀ s : State, Ready s 2 (srcW s * srcH s * 3) →
    Converts .cvtRgb565Rgb888 s 3 fun p => unpacked (srcNat s (p * 2)) (srcNat s (p * 2 + 1))

/-- R132: unpack, then add alpha. -/
def Obligations.UnpackThenOpaqueAlpha : Prop :=
  decode 0x00000311 = .cvtRgb565Rgba8888 ∧ ∀ s : State, Ready s 2 (srcW s * srcH s * 4) →
    Converts .cvtRgb565Rgba8888 s 4 fun p =>
      unpacked (srcNat s (p * 2)) (srcNat s (p * 2 + 1)) ++ [255]

/-- R127: channel swap. -/
def Obligations.SwapExchangesFirstAndThirdByte : Prop :=
  decode 0x000002A1 = .cvtBgr888Rgb888 ∧ ∀ s : State, Ready s 3 (srcW s * srcH s * 3) →
    Converts .cvtBgr888Rgb888 s 3 fun p =>
      [srcByte s (p * 3 + 2), srcByte s (p * 3 + 1), srcByte s (p * 3)]

/-- R128, R129: drop alpha, add alpha. -/
def Obligations.AlphaIsDroppedOrOpaque : Prop :=
  decode 0x00000231 = .cvtRgba8888Rgb888 ∧ decode 0x00000321 = .cvtRgb888Rgba8888 ∧
  (∀ s : State, Ready s 4 (srcW s * srcH s * 3) →
    Converts .cvtRgba8888Rgb888 s 3 fun p =>
      [srcByte s (p * 4), srcByte s (p * 4 + 1), srcByte s (p * 4 + 2)]) ∧
  (∀ s : State, Ready s 3 (srcW s * srcH s * 4) →
    Converts .cvtRgb888Rgba8888 s 4 fun p =>
      [srcByte s (p * 3), srcByte s (p * 3 + 1), srcByte s (p * 3 + 2), 255])

/-- R130, R131: replicate, with and without alpha. -/
def Obligations.GrayReplicates : Prop :=
  decode 0x00000201 = .cvtGray8Rgb888 ∧ decode 0x00000301 = .cvtGray8Rgba8888 ∧
  (∀ s : State, Ready s 1 (srcW s * srcH s * 3) →
    Converts .cvtGray8Rgb888 s 3 fun p => [srcByte s p, srcByte s p, srcByte s p]) ∧
  (∀ s : State, Ready s 1 (srcW s * srcH s * 4) →
    Converts .cvtGray8Rgba8888 s 4 fun p => [srcByte s p, srcByte s p, srcByte s p, 255])

/-- R160: forward; for every quantiser, the unspecified one included. -/
def Obligations.RgbToYuvQuantisesTheExactValues : Prop :=
  decode 0x00000421 = .cvtRgb888Yuv888 ∧ ∀ s : State, Ready s 3 (srcW s * srcH s * 3) →
    Converts .cvtRgb888Yuv888 s 3 fun p =>
      toYuv s.params.q8 (srcNat s (p * 3)) (srcNat s (p * 3 + 1)) (srcNat s (p * 3 + 2))

/-- R161: inverse; for every quantiser, the unspecified one included. -/
def Obligations.YuvToRgbQuantisesTheExactValues : Prop :=
  decode 0x00000241 = .cvtYuv888Rgb888 ∧ ∀ s : State, Ready s 3 (srcW s * srcH s * 3) →
    Converts .cvtYuv888Rgb888 s 3 fun p =>
      fromYuv s.params.q8 (srcNat s (p * 3)) (srcNat s (p * 3 + 1)) (srcNat s (p * 3 + 2))

/-- R137 to R149: the pairs without a path complete with UnsupportedConversion whatever the registers hold, unless
SRC_LEN exceeds CAP, which is ResourceLimit. -/
def Obligations.UnsupportedPairsEndWithError3 : Prop :=
  ∀ (i : Instr) (s : State),
    (i ∈ [Instr.cvtGray8Rgb565, .cvtGray8Yuv888, .cvtRgb565Gray8, .cvtRgb565Yuv888, .cvtRgb888Gray8,
        .cvtRgba8888Gray8, .cvtRgba8888Rgb565, .cvtRgba8888Yuv888, .cvtYuv888Gray8, .cvtYuv888Rgb565,
        .cvtYuv888Rgba8888] ∨
      (∃ src dst, i = .cvtS1Other src dst ∧ WellFormed i) ∨
      (∃ src dst, i = .cvtTag src dst ∧ WellFormed i)) →
    EndsWith i s (if fits s.params (srcLen s) then 3 else 6)

/-- R150 (a) to (d): unpack after pack clears the dropped bits of each channel, the loss is at most 7, 3, 7 and never
negative, the maxima are reached at 255, a second round trip changes nothing, and pack after unpack is the identity on
every word. -/
def Obligations.PackUnpackLaws : Prop :=
  (∀ r g b : Byte, ∃ r' g' b', unpack565 (pack565 r g b) = (r', g', b') ∧
    r'.toNat = r.toNat - r.toNat % 8 ∧ g'.toNat = g.toNat - g.toNat % 4 ∧ b'.toNat = b.toNat - b.toNat % 8 ∧
    r.toNat - r'.toNat ≤ 7 ∧ g.toNat - g'.toNat ≤ 3 ∧ b.toNat - b'.toNat ≤ 7 ∧
    r'.toNat ≤ r.toNat ∧ g'.toNat ≤ g.toNat ∧ b'.toNat ≤ b.toNat) ∧
  unpack565 (pack565 255 255 255) = (255 - 7, 255 - 3, 255 - 7) ∧
  (∀ r g b r' g' b' : Byte, unpack565 (pack565 r g b) = (r', g', b') →
    unpack565 (pack565 r' g' b') = (r', g', b')) ∧
  (∀ w : BitVec 16, pack565 (unpack565 w).1 (unpack565 w).2.1 (unpack565 w).2.2 = w)

/-- R151, and the laws in R127, R129 and R131, pixelwise on byte sequences of `n` pixels: packing the swapped pixels is the
direct form; swap is its own inverse; dropping an added alpha is the identity, adding a dropped alpha replaces every
alpha by 255; replicate with alpha is replicate, then add alpha. -/
def Obligations.ConversionLaws : Prop :=
  (∀ (n : Nat) (buf : List Byte), buf.length = n * 3 →
    mapPixels 3 pixelPack n (mapPixels 3 pixelSwap n buf) = mapPixels 3 pixelPackBgr n buf ∧
    mapPixels 3 pixelSwap n (mapPixels 3 pixelSwap n buf) = buf ∧
    mapPixels 4 pixelDropAlpha n (mapPixels 3 pixelAddAlpha n buf) = buf) ∧
  (∀ (n : Nat) (buf : List Byte), buf.length = n * 4 → ∀ a, a < n * 4 →
    (mapPixels 3 pixelAddAlpha n (mapPixels 4 pixelDropAlpha n buf)).getD a 0 =
      if a % 4 = 3 then 255 else buf.getD a 0) ∧
  (∀ (n : Nat) (buf : List Byte), buf.length = n →
    mapPixels 1 pixelReplicateAlpha n buf = mapPixels 3 pixelAddAlpha n (mapPixels 1 pixelReplicate n buf))

/-- R168: the ranges of the exact values, grey through both transforms, and what the two reference quantisers make of
inverse grey. -/
def Obligations.YuvExactRangesAndGrey : Prop :=
  (∀ r g b : Byte,
    let y := yuvExactY (ratOfByte r) (ratOfByte g) (ratOfByte b)
    let u := yuvExactU (ratOfByte r) (ratOfByte g) (ratOfByte b)
    let v := yuvExactV (ratOfByte r) (ratOfByte g) (ratOfByte b)
    0 ≤ y ∧ y ≤ 255 ∧ 1 / 2 ≤ u ∧ u ≤ 511 / 2 ∧ 1 / 2 ≤ v ∧ v ≤ 511 / 2) ∧
  yuvExactU 255 255 0 = 1 / 2 ∧ yuvExactU 0 0 255 = 511 / 2 ∧
  yuvExactV 0 255 255 = 1 / 2 ∧ yuvExactV 255 0 0 = 511 / 2 ∧ q8Round (511 / 2) = 255 ∧
  (∀ n : Rat, yuvExactY n n n = n ∧ yuvExactU n n n = 128 ∧ yuvExactV n n n = 128) ∧
  (∀ y : Rat, rgbExactR y 128 128 = y + 11 / 10 ^ 7 ∧ rgbExactG y 128 128 = y - 4 / 10 ^ 8 ∧
    rgbExactB y 128 128 = y - 3 / 10 ^ 6) ∧
  (∀ y : Byte,
    q8Round (rgbExactR (ratOfByte y) 128 128) = y ∧ q8Round (rgbExactG (ratOfByte y) 128 128) = y ∧
    q8Round (rgbExactB (ratOfByte y) 128 128) = y ∧
    q8Trunc (rgbExactR (ratOfByte y) 128 128) = y ∧
    q8Trunc (rgbExactG (ratOfByte y) 128 128) = byte (y.toNat - 1) ∧
    q8Trunc (rgbExactB (ratOfByte y) 128 128) = byte (y.toNat - 1)) ∧
  (∀ y u v : Byte,
    let r := rgbExactR (ratOfByte y) (ratOfByte u) (ratOfByte v)
    let g := rgbExactG (ratOfByte y) (ratOfByte u) (ratOfByte v)
    let b := rgbExactB (ratOfByte y) (ratOfByte u) (ratOfByte v)
    r ≥ -(17945659591 / 10 ^ 8) ∧ r ≤ 43305460769 / 10 ^ 8 ∧
    g ≥ -(13440043863 / 10 ^ 8) ∧ g ≤ 39045870972 / 10 ^ 8 ∧
    b ≥ -(22681830444 / 10 ^ 8) ∧ b ≤ 48004628046 / 10 ^ 8)

/-- R170: the exact values as integers over 10^5 and 10^8, and the two reference quantisers on a scaled integer. -/
def Obligations.YuvIntegerForm : Prop :=
  (∀ r g b : Int,
    yuvExactY r g b = ((29900 * r + 58700 * g + 11400 * b : Int) : Rat) / 10 ^ 5 ∧
    yuvExactU r g b = ((-16874 * r - 33126 * g + 50000 * b + 12800000 : Int) : Rat) / 10 ^ 5 ∧
    yuvExactV r g b = ((50000 * r - 41869 * g - 8131 * b + 12800000 : Int) : Rat) / 10 ^ 5) ∧
  (∀ y u v : Int,
    rgbExactR y u v = ((100000000 * y - 715 * u + 140199757 * v - 17945477266 : Int) : Rat) / 10 ^ 8 ∧
    rgbExactG y u v = ((100000000 * y - 34413314 * u - 71413803 * v + 13545870972 : Int) : Rat) / 10 ^ 8 ∧
    rgbExactB y u v = ((100000000 * y + 177200258 * u + 1540 * v - 22681830444 : Int) : Rat) / 10 ^ 8) ∧
  (∀ (x : Int) (d : Nat), 0 < d →
    q8Trunc ((x : Rat) / d) = (if x < 0 then 0 else BitVec.ofInt 8 (min 255 (x / d))) ∧
    q8Round ((x : Rat) / d) = (if 2 * x + d < 0 then 0 else BitVec.ofInt 8 (min 255 ((2 * x + d) / (2 * d)))))

/-! ## DISP -/

/-- R182 to R189: the eight dispatches, byte by byte. -/
def Obligations.DispatchesProduceTheCanonicalPixels : Prop :=
  ∀ row ∈ dispatchRows, ∀ s : State,
    Ready s row.2.1 (srcW s * srcH s * (if row.2.2.1 then 4 else 3)) →
      Converts row.1 s (if row.2.2.1 then 4 else 3) (canonicalPixel s row.2.1 row.2.2.1)

/-- R120, R180: the checks of a conversion or a dispatch that has a path, in their order; the last clause is the capacity
check of the commit (R34). No clause asks that SRC has been written: for the last one that is the model's reading of
20_memory.md R73 (DEDUCED, log 8), because R34 has the check after the output's computation. -/
def Obligations.ConversionChecksInOrder : Prop :=
  ∀ row ∈ convertingRows ++ dispatchRows.map (fun x => (x.1, x.2.1, if x.2.2.1 then 4 else 3)), ∀ s : State,
    (fits s.params (srcLen s) = false → EndsWith row.1 s 6) ∧
    (fits s.params (srcLen s) = true →
      (srcW s = 0 ∨ srcH s = 0 ∨ srcLen s ≠ srcW s * srcH s * row.2.1) → EndsWith row.1 s 1) ∧
    (Shaped s row.2.1 → fits s.params (srcW s * srcH s * row.2.2) = false → EndsWith row.1 s 6)

/-- R192: for every state, the complete result of a dispatch is that of the conversion from the channel count's format. -/
def Obligations.DispatchEqualsConversion : Prop :=
  ∀ row ∈ dispatchRows, ∀ s : State, exec row.1 s = exec row.2.2.2 s

/-- R190, R191: a bad channel count is error 2 whatever the target and the shape; a bad target of a good channel count is
error 3; SRC_LEN beyond CAP comes before both (R180 step 1). -/
def Obligations.DispatchFailuresEndWithTheirError : Prop :=
  ∀ s : State,
    (∀ target ch, WellFormed (.dispAnyChOther target ch) →
      EndsWith (.dispAnyChOther target ch) s (if fits s.params (srcLen s) then 2 else 6)) ∧
    (∀ target, target ≠ 2 → target ≠ 3 →
      ∀ i ∈ [Instr.dispOtherCh1 target, .dispOtherCh2 target, .dispOtherCh3 target, .dispOtherCh4 target],
        EndsWith i s (if fits s.params (srcLen s) then 3 else 6))

/-! ## RESIZE and CROP -/

/-- R202: `(0, 0)` returns the source, for every `Resample`, without the diagnostic. -/
def Obligations.ResizeZeroZeroIsIdentity : Prop :=
  ∀ row ∈ resizeRows, ∀ s : State, Ready s row.2.2 (srcLen s) → argW s = 0 → argH s = 0 →
    ∃ t, exec row.1 s = .next t ∧ Succeeds s t false (srcW s) (srcH s) row.2.2 0 ∧
      ∀ a, a < srcLen s → readByte t.dst a = some (srcByte s a)

/-- R201, R203 to R205, R207: the dimensions of a resized image, whatever `Resample` is. -/
def Obligations.ResizeDeliversTheTargetDimensions : Prop :=
  ∀ row ∈ resizeRows, ∀ s : State, (argW s ≠ 0 ∨ argH s ≠ 0) →
    let d := targetDims (srcW s) (srcH s) (argW s) (argH s)
    Ready s row.2.2 (d.1 * d.2 * row.2.2) → d.1 ≠ 0 → d.2 ≠ 0 → d.1 < 2 ^ 32 → d.2 < 2 ^ 32 →
      ∃ t, exec row.1 s = .next t ∧ Succeeds s t false d.1 d.2 row.2.2 0

/-- R206: a derived dimension of 0 is a no-op with the diagnostic. -/
def Obligations.ResizeToNothingIsDiagnosedNoOp : Prop :=
  ∀ row ∈ resizeRows, ∀ s : State, Ready s row.2.2 (srcLen s) → (argW s ≠ 0 ∨ argH s ≠ 0) →
    let d := targetDims (srcW s) (srcH s) (argW s) (argH s)
    (d.1 = 0 ∨ d.2 = 0) →
      ∃ t, exec row.1 s = .next t ∧ Succeeds s t true (srcW s) (srcH s) row.2.2 0 ∧
        ∀ a, a < srcLen s → readByte t.dst a = some (srcByte s a)

/-- R207 step 8: a target that does not fit CAP, or a dimension that does not fit 32 bits, is ResourceLimit. -/
def Obligations.ResizeBeyondTheLimitsEndsWithError6 : Prop :=
  ∀ row ∈ resizeRows, ∀ s : State, Shaped s row.2.2 → (argW s ≠ 0 ∨ argH s ≠ 0) →
    let d := targetDims (srcW s) (srcH s) (argW s) (argH s)
    d.1 ≠ 0 → d.2 ≠ 0 →
    (2 ^ 32 ≤ d.1 ∨ 2 ^ 32 ≤ d.2 ∨ fits s.params (d.1 * d.2 * row.2.2) = false) → EndsWith row.1 s 6

/-- R210, under the premise that the engine was built with the reference `Resample` (R212): Nearest copies source pixel
`(r*oh div nh, c*ow div nw)`. -/
def Obligations.ReferenceNearestCopiesOnePixel : Prop :=
  ∀ row ∈ [(Instr.resizeNnRgb888, 3), (.resizeNnRgba8888, 4)], ∀ s : State,
    s.params.resample = .reference → (argW s ≠ 0 ∨ argH s ≠ 0) →
    let d := targetDims (srcW s) (srcH s) (argW s) (argH s)
    Ready s row.2 (d.1 * d.2 * row.2) → d.1 ≠ 0 → d.2 ≠ 0 → d.1 < 2 ^ 32 → d.2 < 2 ^ 32 →
      ∃ t, exec row.1 s = .next t ∧ Succeeds s t false d.1 d.2 row.2 0 ∧
        ∀ r c k, r < d.2 → c < d.1 → k < row.2 →
          readByte t.dst ((r * d.1 + c) * row.2 + k) =
            some (srcByte s ((r * srcH s / d.2 * srcW s + c * srcW s / d.1) * row.2 + k))

/-- R211, under the premise that the engine was built with the reference `Resample` (R212): Bilinear quantises the
weighted mean of four source bytes. -/
def Obligations.ReferenceBilinearQuantisesTheMean : Prop :=
  ∀ row ∈ [(Instr.resizeBlRgb888, 3), (.resizeBlRgba8888, 4)], ∀ s : State,
    s.params.resample = .reference → (argW s ≠ 0 ∨ argH s ≠ 0) →
    let d := targetDims (srcW s) (srcH s) (argW s) (argH s)
    Ready s row.2 (d.1 * d.2 * row.2) → d.1 ≠ 0 → d.2 ≠ 0 → d.1 < 2 ^ 32 → d.2 < 2 ^ 32 →
      ∃ t, exec row.1 s = .next t ∧ Succeeds s t false d.1 d.2 row.2 0 ∧
        ∀ r c k, r < d.2 → c < d.1 → k < row.2 →
          readByte t.dst ((r * d.1 + c) * row.2 + k) =
            some (quantise s.params.q8 (bilinearValue s row.2 (srcW s) (srcH s) d.1 d.2 r c k))

/-- R200, R226: the prologue's errors, in their order, for every RESIZE and CROP row. -/
def Obligations.GeometryPrologueErrors : Prop :=
  ∀ s : State,
    (∀ row ∈ resizeRows.map (fun x => (x.1, x.2.2)) ++ cropRows,
      (fits s.params (srcLen s) = false → EndsWith row.1 s 6) ∧
      (fits s.params (srcLen s) = true →
        (srcW s = 0 ∨ srcH s = 0 ∨ srcLen s ≠ srcW s * srcH s * row.2) → EndsWith row.1 s 1)) ∧
    (∀ fmt kind, fmt ≠ 2 → fmt ≠ 3 →
      EndsWith (.resizeOther fmt kind) s (if fits s.params (srcLen s) then 3 else 6) ∧
      EndsWith (.cropOther fmt) s (if fits s.params (srcLen s) then 3 else 6))

/-- R220, R222: a rectangle inside the image is extracted, pixel `(r, c)` from `(cy + r, cx + c)`. -/
def Obligations.CropExtractsTheSubRectangle : Prop :=
  ∀ row ∈ cropRows, ∀ s : State, Ready s row.2 (srcLen s) → argW s ≠ 0 → argH s ≠ 0 →
    argX s + argW s ≤ srcW s → argY s + argH s ≤ srcH s →
      ∃ t, exec row.1 s = .next t ∧ Succeeds s t false (argW s) (argH s) row.2 0 ∧
        ∀ r c k, r < argH s → c < argW s → k < row.2 →
          readByte t.dst ((r * argW s + c) * row.2 + k) =
            some (srcByte s (((argY s + r) * srcW s + argX s + c) * row.2 + k))

/-- R221, R223: every other rectangle returns the source with the diagnostic. -/
def Obligations.CropOutOfBoundsIsDiagnosedNoOp : Prop :=
  ∀ row ∈ cropRows, ∀ s : State, Ready s row.2 (srcLen s) →
    (argW s = 0 ∨ srcW s < argW s ∨ argH s = 0 ∨ srcH s < argH s ∨
      srcW s < argX s + argW s ∨ srcH s < argY s + argH s) →
      ∃ t, exec row.1 s = .next t ∧ Succeeds s t true (srcW s) (srcH s) row.2 0 ∧
        ∀ a, a < srcLen s → readByte t.dst a = some (srcByte s a)

/-- R227 (a), (d), (e): a successful RESIZE or CROP keeps the bytes per pixel, its output has no zero dimension, and a CROP's
output is no larger than the source. -/
def Obligations.GeometryKeepsFormatAndBounds : Prop :=
  ∀ (i : Instr) (s t : State), exec i s = .next t → statusErr t.res.status = 0 →
    let op := (encode i).toNat % 16
    (op = 3 ∨ op = 4) →
      srcLen s = srcW s * srcH s * t.res.outCh.toNat ∧ 1 ≤ t.res.outW.toNat ∧ 1 ≤ t.res.outH.toNat ∧
      (op = 4 → t.res.outW.toNat ≤ srcW s ∧ t.res.outH.toNat ≤ srcH s)

/-- R227 (f): cropping commutes with every pixelwise conversion between canonical formats. -/
def Obligations.CropCommutesWithConversion : Prop :=
  ∀ (q : Quantiser) (f t : ColorFormat) (b : Bool) (path : Machine.Path),
    cvtPath q (some f) b (some t) = some path → isCanonical (some f) = true → isCanonical (some t) = true →
    ∀ (iw ih cx cy w h : Nat) (img : List Byte), img.length = iw * ih * path.srcBpp → cx + w ≤ iw → cy + h ≤ ih →
      mapPixels path.srcBpp path.pixel (w * h) (cropBytes iw path.srcBpp cx cy w h img) =
        cropBytes iw path.dstBpp cx cy w h (mapPixels path.srcBpp path.pixel (iw * ih) img)

/-! ## PIPE and words that are no command -/

/-- R240 to R242, R244, R245 with stage 2 not triggered (R243): each output pixel is the repacked canonical pixel, the
metadata passes through. -/
def Obligations.PipeWithoutResizeRepacksCanonicalPixels : Prop :=
  ∀ ch : Byte, 1 ≤ ch.toNat → ch.toNat ≤ 4 → ∀ row ∈ pipeRowsOf ch, ∀ s : State,
    ¬(ch = 1 ∧ row.2.2.1 = .rgb565) → (argW s = 0 ∨ argH s = 0) →
    Ready s ch.toNat (srcW s * srcH s * canonicalBpp row.2.2.1) →
      ∃ t, exec row.1 s = .next t ∧ Succeeds s t false (srcW s) (srcH s) row.2.2.2 s.ops.metaIn ∧
        ∀ p, p < srcW s * srcH s →
          DstHolds t (p * row.2.2.2)
            (repacked s.params.q8 row.2.2.1 (canonicalPixel s ch.toNat (row.2.2.1 = .rgba8888) p))

/-- R240, R243 with stage 2 triggered: the canonical image is resampled to `(ARG_W, ARG_H)` and every pixel of the
result repacked; the dimensions are exact for every `Resample`. -/
def Obligations.PipeWithResizeRepacksTheResampledImage : Prop :=
  ∀ ch : Byte, 1 ≤ ch.toNat → ch.toNat ≤ 4 → ∀ row ∈ pipeRowsOf ch, ∀ s : State,
    ¬(ch = 1 ∧ row.2.2.1 = .rgb565) → argW s ≠ 0 → argH s ≠ 0 →
    let b := canonicalBpp row.2.2.1
    Ready s ch.toNat (srcW s * srcH s * b) → fits s.params (argW s * argH s * b) = true →
      ∃ t b1, exec row.1 s = .next t ∧ Succeeds s t false (argW s) (argH s) row.2.2.2 s.ops.metaIn ∧
        b1.length = srcW s * srcH s * b ∧
        (∀ p, p < srcW s * srcH s →
          pixelBytes b1 b p = canonicalPixel s ch.toNat (row.2.2.1 = .rgba8888) p) ∧
        ∀ p, p < argW s * argH s →
          DstHolds t (p * row.2.2.2)
            (repacked s.params.q8 row.2.2.1
              (pixelBytes (resample s.params row.2.1 b b1 (srcW s) (srcH s) (argW s) (argH s)) b p))

/-- R240 steps 1 to 8, R247, R262: the failures of stages 1 and 2 of a pipeline whose output has a path, in their
order. -/
def Obligations.PipeFailuresInStageOrder : Prop :=
  ∀ (ch : Byte) (s : State), ∀ row ∈ pipeRowsOf ch,
    let b := canonicalBpp row.2.2.1
    (fits s.params (srcLen s) = false → EndsWith row.1 s 6) ∧
    (fits s.params (srcLen s) = true →
      ((ch = 0 ∨ 4 < ch.toNat) → EndsWith row.1 s 2) ∧
      (ch = 1 ∧ row.2.2.1 = .rgb565 → EndsWith row.1 s 3) ∧
      (1 ≤ ch.toNat → ch.toNat ≤ 4 → ¬(ch = 1 ∧ row.2.2.1 = .rgb565) →
        ((srcW s = 0 ∨ srcH s = 0 ∨ srcLen s ≠ srcW s * srcH s * ch.toNat) → EndsWith row.1 s 1) ∧
        (Shaped s ch.toNat → fits s.params (srcW s * srcH s * b) = false → EndsWith row.1 s 6) ∧
        (Shaped s ch.toNat → argW s ≠ 0 → argH s ≠ 0 → fits s.params (argW s * argH s * b) = false →
          EndsWith row.1 s 6)))

/-- R244: with output Gray8 or a tag of 5 to 7 the pipeline fails at stage 3 with UnsupportedConversion, and only if the
stages before have succeeded. -/
def Obligations.PipeWithoutRepackPathFailsAtStage3 : Prop :=
  ∀ (ch : Byte) (out : Tag) (kind : InterpKind) (s : State), 5 ≤ out.toNat →
    ∀ i ∈ pipeDeadRows ch out kind,
      EndsWith i s
        (if fits s.params (srcLen s) = false then 6
        else if ch = 0 ∨ 4 < ch.toNat then 2
        else if srcW s = 0 ∨ srcH s = 0 ∨ srcLen s ≠ srcW s * srcH s * ch.toNat then 1
        else if fits s.params (srcW s * srcH s * 3) = false then 6
        else if argW s ≠ 0 ∧ argH s ≠ 0 ∧ fits s.params (argW s * argH s * 3) = false then 6
        else 3)

/-- R248, first half: a successful pipeline without stage 2 gives the output of DISP, `mv` and CVT run one after the other.
The intermediate length, of 4 bytes per pixel for Rgba8888 and else of 3, must fit SRC_LEN, or the host could not
write it (log 9). -/
def Obligations.PipelineEqualsDispatchMoveConvert : Prop :=
  ∀ (ch : Byte) (s t : State), s.script = [] →
    ∀ row ∈ [(Instr.pipeRgb565Nn ch, (2 : Tag), (1 : Tag)), (.pipeRgb888Nn ch, 2, 2), (.pipeRgba8888Nn ch, 3, 3),
        (.pipeYuv888Nn ch, 2, 4), (.pipeRgb565Bl ch, 2, 1), (.pipeRgb888Bl ch, 2, 2),
        (.pipeRgba8888Bl ch, 3, 3), (.pipeYuv888Bl ch, 2, 4)],
      (argW s = 0 ∨ argH s = 0) → srcW s * srcH s * (if row.2.1 = 3 then 4 else 3) < 2 ^ 32 →
      exec row.1 s = .next t → statusErr t.res.status = 0 →
      ∃ u, runs 3 { s with script :=
          [goWord (assemble (dispFields ch row.2.1)), .copyDstToSrc,
           goWord (assemble (cvtFields row.2.1 0 row.2.2))] } = .next u ∧
        u.dst = t.dst ∧ u.res.outW = t.res.outW ∧ u.res.outH = t.res.outH ∧ u.res.outCh = t.res.outCh ∧
        u.res.outLen = t.res.outLen ∧ u.res.status = t.res.status

/-- R248, second half: with both target dimensions given, a RESIZE stands between the two, and a second `mv`. Each
intermediate length, of 4 bytes per pixel for Rgba8888 and else of 3, must fit SRC_LEN (log 9). -/
def Obligations.PipelineEqualsDispatchResizeConvert : Prop :=
  ∀ (ch : Byte) (s t : State), s.script = [] →
    ∀ row ∈ [(Instr.pipeRgb565Nn ch, (2 : Tag), (1 : Tag), InterpKind.nearest), (.pipeRgb888Nn ch, 2, 2, .nearest),
        (.pipeRgba8888Nn ch, 3, 3, .nearest), (.pipeYuv888Nn ch, 2, 4, .nearest),
        (.pipeRgb565Bl ch, 2, 1, .bilinear), (.pipeRgb888Bl ch, 2, 2, .bilinear),
        (.pipeRgba8888Bl ch, 3, 3, .bilinear), (.pipeYuv888Bl ch, 2, 4, .bilinear)],
      argW s ≠ 0 → argH s ≠ 0 → srcW s * srcH s * (if row.2.1 = 3 then 4 else 3) < 2 ^ 32 →
      argW s * argH s * (if row.2.1 = 3 then 4 else 3) < 2 ^ 32 →
      exec row.1 s = .next t → statusErr t.res.status = 0 →
      ∃ u, runs 5 { s with script :=
          [goWord (assemble (dispFields ch row.2.1)), .copyDstToSrc,
           goWord (assemble (resizeFields row.2.1 row.2.2.2)), .copyDstToSrc,
           goWord (assemble (cvtFields row.2.1 0 row.2.2.1))] } = .next u ∧
        u.dst = t.dst ∧ u.res.outW = t.res.outW ∧ u.res.outH = t.res.outH ∧ u.res.outCh = t.res.outCh ∧
        u.res.outLen = t.res.outLen ∧ u.res.status = t.res.status

/-- R97, R265: a word that is no command completes with IllegalCommand, whatever the registers and SRC hold. -/
def Obligations.IllegalWordsEndWithError5 : Prop :=
  ∀ (w : Word) (s : State), EndsWith (.illegal w) s 5

/-! ## Rules of the whole machine -/

/-- R23, R311: no command writes SRC, an operand register, CMD, or anything but the result registers and DST. -/
def Obligations.CommandsWriteOnlyResultsAndDst : Prop :=
  ∀ (i : Instr) (s t : State), exec i s = .next t → Kept s t

/-- R310, R301: every command completes when the bytes of its source have been written; a command stops only with the fault
on a SRC byte below SRC_LEN that was never written, and is never refused. -/
def Obligations.CommandsCompleteOnWrittenSource : Prop :=
  ∀ (i : Instr) (s : State),
    (SourceWritten s → ∃ t, exec i s = .next t) ∧
    (∀ e, exec i s = .fault e → ∃ a, a < srcLen s ∧ readByte s.src a = none) ∧
    (∀ r, exec i s ≠ .refused r)

/-- 20_memory.md R73: a command that ends in an error reads no byte of SRC. -/
def Obligations.FailedCommandsReadNoSource : Prop :=
  ∀ (i : Instr) (s t : State) (m : Memory), exec i s = .next t → statusErr t.res.status ≠ 0 →
    exec i { s with src := m } = .next { t with src := m }

/-- R23, R26: two states that agree on what a command reads give it the same result, whatever the other registers, DST and
the earlier results hold. -/
def Obligations.ResultDependsOnTheInputsAlone : Prop :=
  ∀ (i : Instr) (s s' t : State), AgreeOn i s s' → exec i s = .next t →
    ∃ t', exec i s' = .next t' ∧ t'.res = t.res ∧ t'.dst = t.dst

/-- R28, R264: after every command DONE is 1, ERR is 0, 1, 2, 3, 5 or 6, never 4, the other bits are 0, and DIAG = 1
implies ERR = 0. -/
def Obligations.StatusAfterEveryCommandIsLegal : Prop :=
  ∀ (i : Instr) (s t : State), exec i s = .next t →
    let n := t.res.status.toNat
    n / 2 ^ 31 = 1 ∧ n % 16 ∈ [0, 1, 2, 3, 5, 6] ∧ n / 16 % 16 = 0 ∧ n / 2 ^ 9 % 2 ^ 22 = 0 ∧
    (n / 2 ^ 8 % 2 = 1 → n % 16 = 0)

/-- R34: a failed command leaves all five output registers 0 and no DST byte; a successful one leaves
`OUT_LEN = OUT_W * OUT_H * OUT_CH` bytes in DST and no other. -/
def Obligations.CommitLeavesAWindowOfTheOutputShape : Prop :=
  ∀ (i : Instr) (s t : State), exec i s = .next t →
    (statusErr t.res.status ≠ 0 → t.res.outW = 0 ∧ t.res.outH = 0 ∧ t.res.outCh = 0 ∧ t.res.outLen = 0 ∧
      t.res.metaOut = 0 ∧ ∀ a, readByte t.dst a = none) ∧
    t.res.outLen = t.res.outW.toNat * t.res.outH.toNat * t.res.outCh.toNat ∧
    (∀ a, (∃ b, readByte t.dst a = some b) ↔ a < t.res.outLen)

/-- R227 (b), R264: only a RESIZE or a CROP sets the diagnostic, and then the output is the source image with the
source's dimensions. -/
def Obligations.DiagnosticMeansTheSourceCameBack : Prop :=
  ∀ (i : Instr) (s t : State), exec i s = .next t → statusDiag t.res.status = true →
    ((encode i).toNat % 16 = 3 ∨ (encode i).toNat % 16 = 4) ∧
    t.res.outW = s.ops.srcW ∧ t.res.outH = s.ops.srcH ∧ t.res.outLen = srcLen s ∧
    ∀ a, a < srcLen s → readByte t.dst a = readByte s.src a

/-- The invariant holds after reset. -/
def Obligations.InvariantHoldsAtReset : Prop := Inv State.reset

/-- Every step keeps the invariant: both memories canonical, SRC within CAP, STATUS legal, the output registers
describing exactly the valid window of DST; and no step changes the parameters (10_state.md R38, log 1). -/
def Obligations.EveryStepKeepsTheInvariant : Prop :=
  ∀ s t : State, Inv s → step s = .next t → Inv t ∧ t.params = s.params

/-- 20_memory.md R72, 60_exceptions.md R280: a step of one engine leaves every other engine as it was, and the steps of
two engines can be taken in either order with the same result. -/
def Obligations.EnginesAreIndependent : Prop :=
  (∀ (f g : Fleet) (n k : Nat), fleetStep n f = .next g → k ≠ n → g[k]? = f[k]?) ∧
  (∀ (f g h : Fleet) (n k : Nat), n ≠ k → fleetStep n f = .next g → fleetStep k g = .next h →
    ∃ g', fleetStep k f = .next g' ∧ fleetStep n g' = .next h)
end

