-- ==== Sys2Proof/Laws/Image.lean ====
section
/-!
SUPPORT. Images as byte lists: the length and each byte of a pixelwise conversion and of a built image
(spec/40_codec.md R122, spec/20_memory.md R64).
-/
namespace Sys2Proof.Machine

theorem length_flatMap_range {n c : Nat} {f : Nat → List Byte} (h : ∀ p, p < n → (f p).length = c) :
    ((List.range n).flatMap f).length = n * c := by
  induction n with
  | zero => simp
  | succ n ih =>
    rw [List.range_succ, List.flatMap_append, List.length_append, ih (fun p hp => h p (by omega))]
    simp [h n (by omega), Nat.succ_mul]

theorem getD_flatMap_range {n c : Nat} {f : Nat → List Byte} (h : ∀ p, p < n → (f p).length = c)
    {p k : Nat} (hp : p < n) (hk : k < c) :
    ((List.range n).flatMap f).getD (p * c + k) 0 = (f p).getD k 0 := by
  induction n with
  | zero => omega
  | succ n ih =>
    have hlen := length_flatMap_range (n := n) (c := c) (f := f) (fun p hp => h p (by omega))
    rw [List.range_succ, List.flatMap_append]
    rcases Nat.lt_succ_iff_lt_or_eq.mp hp with hp' | rfl
    · have hb : p * c + k < n * c := by
        have := Nat.mul_le_mul_right c (Nat.succ_le_of_lt hp')
        rw [Nat.succ_mul] at this
        omega
      rw [List.getD_append _ _ _ _ (by omega)]
      exact ih (fun p hp => h p (by omega)) hp'
    · rw [List.getD_append_right _ _ _ _ (by omega), hlen]
      simp

/-- A pixelwise conversion delivers `n * c` bytes when its pixel function delivers `c`. -/
theorem mapPixels_length {f : Pixel → List Byte} {c : Nat} (h : ∀ p, (f p).length = c) (b n : Nat)
    (img : List Byte) : (mapPixels b f n img).length = n * c :=
  length_flatMap_range (fun _ _ => h _)

/-- Byte `k` of output pixel `p` is byte `k` of `f P_p` (R122). -/
theorem mapPixels_getD {f : Pixel → List Byte} {c : Nat} (h : ∀ p, (f p).length = c) (b : Nat) {n : Nat}
    (img : List Byte) {p k : Nat} (hp : p < n) (hk : k < c) :
    (mapPixels b f n img).getD (p * c + k) 0 = (f (pixelAt img b p)).getD k 0 :=
  getD_flatMap_range (fun _ _ => h _) hp hk

/-- A list of `n * c` bytes whose pixels are those of `f` is the flat map of `f`. -/
theorem eq_of_getD_eq {l l' : List Byte} (hl : l.length = l'.length)
    (h : ∀ i, i < l.length → l.getD i 0 = l'.getD i 0) : l = l' := by
  apply List.ext_getElem hl
  intro i h1 h2
  have := h i h1
  simpa [List.getD_eq_getElem?_getD, h1, h2] using this

theorem index_lt {p n k c : Nat} (hp : p < n) (hk : k < c) : p * c + k < n * c := by
  have := Nat.mul_le_mul_right c (Nat.succ_le_of_lt hp)
  rw [Nat.succ_mul] at this
  omega

theorem div_mod_index {i n c : Nat} (h : i < n * c) : i / c < n ∧ i % c < c ∧ i / c * c + i % c = i := by
  have hc : 0 < c := by
    rcases Nat.eq_zero_or_pos c with rfl | hc
    · simp at h
    · exact hc
  exact ⟨Nat.div_lt_of_lt_mul (by rwa [Nat.mul_comm]), Nat.mod_lt _ hc, Nat.div_add_mod' i c⟩

/-- Copying every pixel copies the image (R123, R133 to R136). -/
theorem mapPixels_copy {b n : Nat} {img : List Byte} (h : img.length = n * b) :
    mapPixels b (pixelCopy b) n img = img := by
  have hc : ∀ p, (pixelCopy b p).length = b := fun p => by simp [pixelCopy]
  apply eq_of_getD_eq (by rw [mapPixels_length hc, h])
  intro i hi
  rw [mapPixels_length hc] at hi
  obtain ⟨h1, h2, h3⟩ := div_mod_index hi
  rw [← h3, mapPixels_getD hc b img h1 h2]
  simp [pixelCopy, pixelAt, byteAt, List.getD_eq_getElem?_getD, h2]

theorem buildRow_length (w b : Nat) (g : Nat → Nat → Byte) :
    ((List.range w).flatMap fun c => (List.range b).map (g c)).length = w * b :=
  length_flatMap_range (fun _ _ => by simp)

/-- A built image has `h * w * b` bytes. -/
theorem buildImage_length (w h b : Nat) (f : Nat → Nat → Nat → Byte) :
    (buildImage w h b f).length = w * h * b := by
  rw [buildImage, length_flatMap_range (c := w * b) (fun _ _ => buildRow_length w b _)]
  ring

/-- `img[r][c][k]` of a built image is `f r c k` (R64). -/
theorem buildImage_getD {w h b : Nat} {f : Nat → Nat → Nat → Byte} {r c k : Nat} (hr : r < h) (hc : c < w)
    (hk : k < b) : (buildImage w h b f).getD ((r * w + c) * b + k) 0 = f r c k := by
  have h1 := getD_flatMap_range (n := h) (c := w * b)
    (f := fun r => (List.range w).flatMap fun c => (List.range b).map (f r c))
    (fun _ _ => buildRow_length w b _) hr (index_lt hc hk)
  have h2 := getD_flatMap_range (n := w) (c := b) (f := fun c => (List.range b).map (f r c))
    (fun _ _ => by simp) hc hk
  rw [show (r * w + c) * b + k = r * (w * b) + (c * b + k) by ring, buildImage, h1, h2]
  simp [List.getD_eq_getElem?_getD, hk]

/-- The contract of `Resample`: `nw * nh * b` bytes (43_geometry.md R208 (ii)). -/
theorem resample_length (p : Params) (kind : InterpKind) (b : Nat) (img : List Byte) (ow oh nw nh : Nat) :
    (resample p kind b img ow oh nw nh).length = nw * nh * b := by
  unfold resample
  split
  · simp
  · exact buildImage_length nw nh b _
  · exact buildImage_length nw nh b _

/-- Byte `k` of pixel `p` of a converted image. -/
theorem pixelAt_mapPixels {f : Pixel → List Byte} {c : Nat} (h : ∀ p, (f p).length = c) (b n : Nat)
    (img : List Byte) {p k : Nat} (hp : p < n) (hk : k < c) :
    pixelAt (mapPixels b f n img) c p k = (f (pixelAt img b p)).getD k 0 :=
  mapPixels_getD h b img hp hk

/-- A byte list with the bytes of a conversion is the conversion. -/
theorem mapPixels_ext {f : Pixel → List Byte} {c : Nat} (hf : ∀ p, (f p).length = c) {b n : Nat}
    {img l : List Byte} (hl : l.length = n * c)
    (h : ∀ p k, p < n → k < c → (f (pixelAt img b p)).getD k 0 = l.getD (p * c + k) 0) :
    mapPixels b f n img = l := by
  apply eq_of_getD_eq (by rw [mapPixels_length hf, hl])
  intro i hi
  rw [mapPixels_length hf] at hi
  obtain ⟨h1, h2, h3⟩ := div_mod_index hi
  rw [← h3, mapPixels_getD hf b img h1 h2]
  exact h _ _ h1 h2

end Sys2Proof.Machine
end

