-- ==== Sys2Proof/Laws/Memory.lean ====
section
/-!
SUPPORT. The byte memories: read after write, the canonical form is kept, ranges and freshly made memories.
-/
namespace Sys2Proof.Machine

/-- Read after write: the byte written, and every other byte as before. -/
theorem readByte_writeByte (m : Memory) (a : Nat) (b : Byte) (x : Nat) :
    readByte (writeByte m a b) x = if x = a then some b else readByte m x := by
  induction m with
  | nil => by_cases h : a = x <;> simp [writeByte, readByte, h, eq_comm]
  | cons c m ih =>
    obtain ⟨a', b'⟩ := c
    simp only [writeByte]
    split
    · next h => by_cases hx : a = x <;> simp [readByte, hx, eq_comm]
    · split
      · next h => by_cases hx : a = x <;> subst h <;> simp [readByte, hx, eq_comm]
      · next h1 h2 =>
        by_cases hx : a' = x
        · have : x ≠ a := by omega
          simp [readByte, hx, this]
        · simp [readByte, hx, ih]

theorem mem_fst_writeByte {m : Memory} {a : Nat} {b : Byte} {x : Nat}
    (h : x ∈ (writeByte m a b).map Prod.fst) : x = a ∨ x ∈ m.map Prod.fst := by
  induction m with
  | nil => simpa [writeByte] using h
  | cons c m ih =>
    obtain ⟨a', b'⟩ := c
    simp only [writeByte] at h
    split at h
    · simpa using h
    · split at h
      · next e => subst e; simp at h ⊢; tauto
      · simp only [List.map_cons, List.mem_cons] at h ⊢
        rcases h with h | h
        · exact .inr (.inl h)
        · rcases ih h with h | h
          · exact .inl h
          · exact .inr (.inr h)

/-- A write keeps the canonical form. -/
theorem writeByte_wf {m : Memory} (hm : m.wf) (a : Nat) (b : Byte) : (writeByte m a b).wf := by
  induction m with
  | nil => simp [writeByte, Memory.wf]
  | cons c m ih =>
    obtain ⟨a', b'⟩ := c
    simp only [Memory.wf, List.map_cons, List.pairwise_cons] at hm
    obtain ⟨hlt, hm⟩ := hm
    simp only [writeByte]
    split
    · next h =>
      simp only [Memory.wf, List.map_cons, List.pairwise_cons, List.mem_cons]
      refine ⟨?_, hlt, hm⟩
      rintro x (rfl | hx)
      · exact h
      · exact Nat.lt_trans h (hlt x hx)
    · split
      · next h => subst h; exact List.pairwise_cons.mpr ⟨hlt, hm⟩
      · next h1 h2 =>
        refine List.pairwise_cons.mpr ⟨?_, ih hm⟩
        intro x hx
        rcases mem_fst_writeByte hx with rfl | hx
        · show a' < x
          omega
        · exact hlt x hx

theorem readByte_eq_none_of_not_mem {m : Memory} {a : Nat} (h : a ∉ m.map Prod.fst) : readByte m a = none := by
  induction m with
  | nil => rfl
  | cons c m ih =>
    obtain ⟨a', b'⟩ := c
    simp only [List.map_cons, List.mem_cons, not_or] at h
    simp [readByte, Ne.symm h.1, ih h.2]

theorem exists_readByte_iff_mem {m : Memory} {a : Nat} : (∃ b, readByte m a = some b) ↔ a ∈ m.map Prod.fst := by
  induction m with
  | nil => simp [readByte]
  | cons c m ih =>
    obtain ⟨a', b'⟩ := c
    by_cases h : a' = a
    · subst h; simp [readByte]
    · simp only [readByte, h, if_false, ih, List.map_cons, List.mem_cons]
      constructor
      · exact .inr
      · rintro (rfl | h')
        · exact absurd rfl h
        · exact h'

/-- A range that reads has the range's length, and its bytes are the memory's. -/
theorem readRange_spec {m : Memory} {a n : Nat} {bs : List Byte} (h : readRange m a n = some bs) :
    bs.length = n ∧ ∀ k, k < n → readByte m (a + k) = some (bs.getD k 0) := by
  induction n generalizing a bs with
  | zero => simp only [readRange, Option.some.injEq] at h; subst h; simp
  | succ n ih =>
    simp only [readRange] at h
    split at h
    · next b bs' hb hbs =>
      obtain rfl := Option.some.inj h
      obtain ⟨hl, hr⟩ := ih hbs
      refine ⟨by simp [hl], ?_⟩
      intro k hk
      cases k with
      | zero => simpa using hb
      | succ k =>
        have := hr k (by omega)
        rw [show a + (k + 1) = a + 1 + k by omega]
        simpa using this
    · cases h

/-- A range reads exactly when each of its bytes holds a value. -/
theorem readRange_isSome {m : Memory} {a n : Nat} :
    (∃ bs, readRange m a n = some bs) ↔ ∀ k, k < n → ∃ b, readByte m (a + k) = some b := by
  constructor
  · rintro ⟨bs, h⟩ k hk
    exact ⟨_, (readRange_spec h).2 k hk⟩
  · intro h
    induction n generalizing a with
    | zero => exact ⟨[], rfl⟩
    | succ n ih =>
      obtain ⟨b, hb⟩ := h 0 (by omega)
      obtain ⟨bs, hbs⟩ := ih (a := a + 1) (fun k hk => by
        have := h (k + 1) (by omega)
        rwa [show a + (k + 1) = a + 1 + k by omega] at this)
      exact ⟨b :: bs, by simp [readRange, hbs, show readByte m a = some b from hb]⟩

/-- A range depends only on the bytes it covers. -/
theorem readRange_congr {m m' : Memory} {a n : Nat} (h : ∀ k, k < n → readByte m (a + k) = readByte m' (a + k)) :
    readRange m a n = readRange m' a n := by
  induction n generalizing a with
  | zero => rfl
  | succ n ih =>
    have h0 := h 0 (by omega)
    have := ih (a := a + 1) (fun k hk => by
      have := h (k + 1) (by omega)
      rwa [show a + (k + 1) = a + 1 + k by omega] at this)
    simp only [Nat.add_zero] at h0
    simp [readRange, h0, this]

/-- A memory made of bytes lists exactly their addresses. -/
theorem memoryOfBytes_fst (a : Nat) (bs : List Byte) :
    (memoryOfBytes a bs).map Prod.fst = List.range' a bs.length := by
  induction bs generalizing a with
  | nil => rfl
  | cons b bs ih => simp [memoryOfBytes, ih, List.range'_succ]

theorem memoryOfBytes_wf (a : Nat) (bs : List Byte) : (memoryOfBytes a bs).wf := by
  simp only [Memory.wf, memoryOfBytes_fst]
  exact List.pairwise_lt_range'

theorem readByte_memoryOfBytes_lt {a : Nat} (bs : List Byte) {k : Nat} (hk : k < bs.length) :
    readByte (memoryOfBytes a bs) (a + k) = some (bs.getD k 0) := by
  induction bs generalizing a k with
  | nil => simp at hk
  | cons b bs ih =>
    cases k with
    | zero => simp [memoryOfBytes, readByte]
    | succ k =>
      have hk' : k < bs.length := by simpa using hk
      have := ih (a := a + 1) hk'
      rw [show a + (k + 1) = a + 1 + k by omega]
      have hne : a ≠ a + 1 + k := by omega
      simp [memoryOfBytes, readByte, hne, this]

/-- DST after a commit: byte `k` is output byte `k`, and there is no other. -/
theorem readByte_memoryOfBytes (bs : List Byte) (k : Nat) :
    readByte (memoryOfBytes 0 bs) k = if k < bs.length then some (bs.getD k 0) else none := by
  split
  · next h => simpa using readByte_memoryOfBytes_lt (a := 0) bs h
  · next h =>
    apply readByte_eq_none_of_not_mem
    rw [memoryOfBytes_fst, List.mem_range'_1]
    omega

theorem readRange_memoryOfBytes (bs : List Byte) : readRange (memoryOfBytes 0 bs) 0 bs.length = some bs := by
  obtain ⟨out, h⟩ := (readRange_isSome (m := memoryOfBytes 0 bs) (a := 0) (n := bs.length)).2 (fun k hk => by
    exact ⟨_, by simpa [hk] using readByte_memoryOfBytes bs k⟩)
  obtain ⟨hl, hr⟩ := readRange_spec h
  rw [h]
  congr 1
  apply List.ext_getElem hl
  intro k h1 h2
  have h3 := hr k h2
  rw [Nat.zero_add, readByte_memoryOfBytes, if_pos h2] at h3
  have := Option.some.inj h3
  simpa [List.getD_eq_getElem?_getD, h1, h2] using this.symm

/-- What fits below an index that fits is inside. -/
theorem inCap_of_fits {p : Params} {n a : Nat} (h : fits p n = true) (ha : a < n) : inCap p a = true := by
  unfold fits at h
  unfold inCap
  split at h <;> simp_all
  omega

theorem fits_mono {p : Params} {n k : Nat} (h : fits p n = true) (hk : k ≤ n) : fits p k = true := by
  unfold fits at h ⊢
  split at h <;> simp_all
  omega

end Sys2Proof.Machine
end

