-- ==== Sys2Proof/Laws/State.lean ====
section
/-!
SUPPORT. The fields of the state under each update, so that no proof unfolds a record update, and the inversion
of `finish`: what any command does to the state.
-/
namespace Sys2Proof.Machine

section FieldsAfter_raiseError
variable (s : State) (e : ErrKind)
@[simp] theorem raiseError_cmd : (raiseError s e).cmd = s.cmd := rfl
@[simp] theorem raiseError_ops : (raiseError s e).ops = s.ops := rfl
@[simp] theorem raiseError_src : (raiseError s e).src = s.src := rfl
@[simp] theorem raiseError_dst : (raiseError s e).dst = [] := rfl
@[simp] theorem raiseError_params : (raiseError s e).params = s.params := rfl
@[simp] theorem raiseError_script : (raiseError s e).script = s.script := rfl
@[simp] theorem raiseError_reads : (raiseError s e).reads = s.reads := rfl
@[simp] theorem raiseError_fresh : (raiseError s e).fresh = s.fresh := rfl
@[simp] theorem raiseError_status : (raiseError s e).res.status = statusOfError e := rfl
@[simp] theorem raiseError_outW : (raiseError s e).res.outW = 0 := rfl
@[simp] theorem raiseError_outH : (raiseError s e).res.outH = 0 := rfl
@[simp] theorem raiseError_outCh : (raiseError s e).res.outCh = 0 := rfl
@[simp] theorem raiseError_outLen : (raiseError s e).res.outLen = 0 := rfl
@[simp] theorem raiseError_metaOut : (raiseError s e).res.metaOut = 0 := rfl
end FieldsAfter_raiseError

section FieldsAfter_commitSuccess
variable (s : State) (p : Plan) (out : List Byte)
@[simp] theorem commitSuccess_cmd : (commitSuccess s p out).cmd = s.cmd := rfl
@[simp] theorem commitSuccess_ops : (commitSuccess s p out).ops = s.ops := rfl
@[simp] theorem commitSuccess_src : (commitSuccess s p out).src = s.src := rfl
@[simp] theorem commitSuccess_dst : (commitSuccess s p out).dst = memoryOfBytes 0 out := rfl
@[simp] theorem commitSuccess_params : (commitSuccess s p out).params = s.params := rfl
@[simp] theorem commitSuccess_script : (commitSuccess s p out).script = s.script := rfl
@[simp] theorem commitSuccess_reads : (commitSuccess s p out).reads = s.reads := rfl
@[simp] theorem commitSuccess_fresh : (commitSuccess s p out).fresh = s.fresh := rfl
@[simp] theorem commitSuccess_status : (commitSuccess s p out).res.status = statusOfSuccess p.diag := rfl
@[simp] theorem commitSuccess_outW : (commitSuccess s p out).res.outW = BitVec.ofNat 32 p.outW := rfl
@[simp] theorem commitSuccess_outH : (commitSuccess s p out).res.outH = BitVec.ofNat 32 p.outH := rfl
@[simp] theorem commitSuccess_outCh : (commitSuccess s p out).res.outCh = BitVec.ofNat 32 p.outCh := rfl
@[simp] theorem commitSuccess_outLen : (commitSuccess s p out).res.outLen = out.length := rfl
@[simp] theorem commitSuccess_metaOut : (commitSuccess s p out).res.metaOut = p.metadata := rfl
end FieldsAfter_commitSuccess

section FieldsAfter_deliver
variable (v : Nat) (s : State)
@[simp] theorem deliver_cmd : (deliver v s).cmd = s.cmd := rfl
@[simp] theorem deliver_ops : (deliver v s).ops = s.ops := rfl
@[simp] theorem deliver_res : (deliver v s).res = s.res := rfl
@[simp] theorem deliver_src : (deliver v s).src = s.src := rfl
@[simp] theorem deliver_dst : (deliver v s).dst = s.dst := rfl
@[simp] theorem deliver_params : (deliver v s).params = s.params := rfl
@[simp] theorem deliver_script : (deliver v s).script = s.script := rfl
@[simp] theorem deliver_reads : (deliver v s).reads = v :: s.reads := rfl
@[simp] theorem deliver_fresh : (deliver v s).fresh = s.fresh := rfl
end FieldsAfter_deliver

section FieldsAfter_hostWriteSrc
variable (a : Nat) (b : Byte) (s : State)
@[simp] theorem hostWriteSrc_cmd : (hostWriteSrc a b s).cmd = s.cmd := by unfold hostWriteSrc; split <;> rfl
@[simp] theorem hostWriteSrc_ops : (hostWriteSrc a b s).ops = s.ops := by unfold hostWriteSrc; split <;> rfl
@[simp] theorem hostWriteSrc_res : (hostWriteSrc a b s).res = s.res := by unfold hostWriteSrc; split <;> rfl
@[simp] theorem hostWriteSrc_src : (hostWriteSrc a b s).src =
    if inCap s.params a then writeByte s.src a b else s.src := by unfold hostWriteSrc; split <;> rfl
@[simp] theorem hostWriteSrc_dst : (hostWriteSrc a b s).dst = s.dst := by unfold hostWriteSrc; split <;> rfl
@[simp] theorem hostWriteSrc_params : (hostWriteSrc a b s).params = s.params := by
  unfold hostWriteSrc; split <;> rfl
@[simp] theorem hostWriteSrc_script : (hostWriteSrc a b s).script = s.script := by
  unfold hostWriteSrc; split <;> rfl
@[simp] theorem hostWriteSrc_reads : (hostWriteSrc a b s).reads = s.reads := by
  unfold hostWriteSrc; split <;> rfl
@[simp] theorem hostWriteSrc_fresh : (hostWriteSrc a b s).fresh = s.fresh := by
  unfold hostWriteSrc; split <;> rfl
end FieldsAfter_hostWriteSrc

section FieldsAfter_takeDst
variable (a : Nat) (s : State)
@[simp] theorem takeDst_cmd : (takeDst a s).2.cmd = s.cmd := by unfold takeDst; split <;> rfl
@[simp] theorem takeDst_ops : (takeDst a s).2.ops = s.ops := by unfold takeDst; split <;> rfl
@[simp] theorem takeDst_res : (takeDst a s).2.res = s.res := by unfold takeDst; split <;> rfl
@[simp] theorem takeDst_src : (takeDst a s).2.src = s.src := by unfold takeDst; split <;> rfl
@[simp] theorem takeDst_dst : (takeDst a s).2.dst = s.dst := by unfold takeDst; split <;> rfl
@[simp] theorem takeDst_params : (takeDst a s).2.params = s.params := by unfold takeDst; split <;> rfl
@[simp] theorem takeDst_script : (takeDst a s).2.script = s.script := by unfold takeDst; split <;> rfl
@[simp] theorem takeDst_reads : (takeDst a s).2.reads = s.reads := by unfold takeDst; split <;> rfl
/-- A byte of the valid window is read as it stands and nothing changes. -/
theorem takeDst_listed {b : Byte} (h : readByte s.dst a = some b) : takeDst a s = (b, s) := by
  simp [takeDst, h]
/-- A byte outside the window is the next free value. -/
theorem takeDst_unlisted (h : readByte s.dst a = none) :
    takeDst a s = (Config.freeByte s.params.engine s.fresh, { s with fresh := s.fresh + 1 }) := by
  simp [takeDst, h]
end FieldsAfter_takeDst

/-- All that a command can do when it answers a next state: commit an error, or commit the output of a plan whose
image is `SRC[0 .. SRC_LEN)` and whose output fits. -/
theorem finish_cases {s t : State} {r : Except ErrKind Plan} (h : finish s r = .next t) :
    (∃ e, r = .error e ∧ t = raiseError s e) ∨
    (∃ plan, r = .ok plan ∧ fits s.params (plan.outW * plan.outH * plan.outCh) = false ∧
      t = raiseError s .resourceLimit) ∨
    (∃ plan img, r = .ok plan ∧ fits s.params (plan.outW * plan.outH * plan.outCh) = true ∧
      readRange s.src 0 s.ops.srcLen.toNat = some img ∧ t = commitSuccess s plan (plan.bytes img)) := by
  unfold finish at h
  split at h
  · exact .inl ⟨_, rfl, (Host.Outcome.next.inj h).symm⟩
  · next plan =>
    split at h
    · next hf =>
      split at h
      · next img hi => exact .inr (.inr ⟨plan, img, rfl, hf, hi, (Host.Outcome.next.inj h).symm⟩)
      · cases h
    · next hf => exact .inr (.inl ⟨plan, rfl, by simpa using hf, (Host.Outcome.next.inj h).symm⟩)

theorem finish_error (s : State) (e : ErrKind) : finish s (.error e) = .next (raiseError s e) := rfl

/-- A plan whose output does not fit ends with ResourceLimit, whatever SRC holds. -/
theorem finish_tooLong {s : State} {plan : Plan}
    (h : fits s.params (plan.outW * plan.outH * plan.outCh) = false) :
    finish s (.ok plan) = .next (raiseError s .resourceLimit) := by
  simp [finish, h]

/-- A plan whose output fits, on a written source, commits its output bytes. -/
theorem finish_ok {s : State} {plan : Plan} {img : List Byte}
    (h : fits s.params (plan.outW * plan.outH * plan.outCh) = true)
    (hi : readRange s.src 0 s.ops.srcLen.toNat = some img) :
    finish s (.ok plan) = .next (commitSuccess s plan (plan.bytes img)) := by
  simp [finish, h, hi]

/-- A command faults only when its checks pass and a byte of the source was never written. -/
theorem finish_fault {s : State} {r : Except ErrKind Plan} {e : Fault} (h : finish s r = .fault e) :
    readRange s.src 0 s.ops.srcLen.toNat = none ∧ e = .unwrittenSrcByte := by
  unfold finish at h
  split at h
  · cases h
  · split at h
    · split at h
      · cases h
      · next hi => exact ⟨hi, (Host.Outcome.fault.inj h).symm⟩
    · cases h

theorem finish_not_refused (s : State) (r : Except ErrKind Plan) (f : Refusal) : finish s r ≠ .refused f := by
  intro h
  unfold finish at h
  split at h
  · cases h
  · split at h
    · split at h <;> cases h
    · cases h

end Sys2Proof.Machine
end

