-- ==== Sys2Proof/Laws/Codec.lean ====
section
/-!
SUPPORT. The Codec: lengths of the pixel functions, what a path is, and what each plan's checks are
(spec/40_codec.md R120, R121).
-/
namespace Sys2Proof.Machine

@[simp] theorem pixelCopy_length (b : Nat) (p : Pixel) : (pixelCopy b p).length = b := by simp [pixelCopy]
@[simp] theorem pixelPack_length (p : Pixel) : (pixelPack p).length = 2 := rfl
@[simp] theorem pixelPackBgr_length (p : Pixel) : (pixelPackBgr p).length = 2 := rfl
@[simp] theorem pixelSwap_length (p : Pixel) : (pixelSwap p).length = 3 := rfl
@[simp] theorem pixelUnpack_length (p : Pixel) : (pixelUnpack p).length = 3 := rfl
@[simp] theorem pixelUnpackAlpha_length (p : Pixel) : (pixelUnpackAlpha p).length = 4 := rfl
@[simp] theorem pixelDropAlpha_length (p : Pixel) : (pixelDropAlpha p).length = 3 := rfl
@[simp] theorem pixelAddAlpha_length (p : Pixel) : (pixelAddAlpha p).length = 4 := rfl
@[simp] theorem pixelReplicate_length (p : Pixel) : (pixelReplicate p).length = 3 := rfl
@[simp] theorem pixelReplicateAlpha_length (p : Pixel) : (pixelReplicateAlpha p).length = 4 := rfl
@[simp] theorem pixelToYuv_length (q : Quantiser) (p : Pixel) : (pixelToYuv q p).length = 3 := rfl
@[simp] theorem pixelFromYuv_length (q : Quantiser) (p : Pixel) : (pixelFromYuv q p).length = 3 := rfl

/-- A path is sound: its pixel function delivers `dstBpp` bytes, which are between 1 and 4. -/
structure PathSound (path : Path) : Prop where
  length : ∀ p, (path.pixel p).length = path.dstBpp
  srcPos : 1 ≤ path.srcBpp ∧ path.srcBpp ≤ 4
  dstPos : 1 ≤ path.dstBpp ∧ path.dstBpp ≤ 4

/-- Every path of the matrix is sound. -/
theorem cvtPath_sound {q : Quantiser} {f t : Option ColorFormat} {s : Bool} {path : Path}
    (h : cvtPath q f s t = some path) : PathSound path := by
  unfold cvtPath at h
  split at h
  · next f t =>
    cases s <;> cases f <;> cases t <;> simp [plainPath, reversedPath] at h <;> subst h <;>
      exact ⟨fun p => by simp, by simp, by simp⟩
  · cases h

/-- Every path of the plain matrix has the bytes per pixel of its formats. -/
theorem cvtPath_bpp {q : Quantiser} {f t : ColorFormat} {s : Bool} {path : Path}
    (h : cvtPath q (some f) s (some t) = some path) : path.srcBpp = bpp f ∧ path.dstBpp = bpp t := by
  cases s <;> cases f <;> cases t <;> simp [cvtPath, plainPath, reversedPath] at h <;> subst h <;>
    simp [bpp]

/-- All that the checks of CVT can answer (R120). -/
theorem cvtPlan_spec (p : Params) (o : Operands) (f : Option ColorFormat) (s : Bool) (t : Option ColorFormat) :
    cvtPlan p o f s t =
      if fits p o.srcLen.toNat = false then .error .resourceLimit
      else match cvtPath p.q8 f s t with
        | none => .error .unsupportedConversion
        | some path =>
          if o.srcW.toNat = 0 ∨ o.srcH.toNat = 0 ∨
              o.srcLen.toNat ≠ o.srcW.toNat * o.srcH.toNat * path.srcBpp then .error .shapeMismatch
          else .ok
            { diag := false, outW := o.srcW.toNat, outH := o.srcH.toNat, outCh := path.dstBpp, metadata := 0
              bytes := mapPixels path.srcBpp path.pixel (o.srcW.toNat * o.srcH.toNat) } := by
  unfold cvtPlan
  by_cases hf : fits p o.srcLen.toNat = true
  · simp only [hf]
    cases cvtPath p.q8 f s t with
    | none => rfl
    | some path =>
      simp only
      by_cases h1 : o.srcW.toNat = 0 ∨ o.srcH.toNat = 0
      · have : o.srcW.toNat = 0 ∨ o.srcH.toNat = 0 ∨
            o.srcLen.toNat ≠ o.srcW.toNat * o.srcH.toNat * path.srcBpp := by tauto
        simp [h1, this]
      · by_cases h2 : o.srcLen.toNat ≠ o.srcW.toNat * o.srcH.toNat * path.srcBpp
        · simp [h1, h2]
        · simp [h1, h2]
  · simp [hf]

/-- What every plan of every command satisfies: the source fits, the dimensions fit their registers, the output of a
well-shaped image has the announced length, and a diagnosed plan is the no-op on the source. -/
structure PlanSound (p : Params) (o : Operands) (plan : Plan) : Prop where
  fitsIn : fits p o.srcLen.toNat = true
  width : plan.outW < 2 ^ 32
  height : plan.outH < 2 ^ 32
  channels : plan.outCh < 2 ^ 32
  length : ∀ img : List Byte, img.length = o.srcLen.toNat →
    (plan.bytes img).length = plan.outW * plan.outH * plan.outCh
  noOp : plan.diag = true → plan.outW = o.srcW.toNat ∧ plan.outH = o.srcH.toNat ∧
    o.srcLen.toNat = o.srcW.toNat * o.srcH.toNat * plan.outCh ∧ plan.bytes = id

theorem cvtPlan_sound {p : Params} {o : Operands} {f t : Option ColorFormat} {s : Bool} {plan : Plan}
    (h : cvtPlan p o f s t = .ok plan) : PlanSound p o plan ∧ plan.diag = false := by
  rw [cvtPlan_spec] at h
  split at h
  · cases h
  · next hf =>
    split at h
    · cases h
    · next path hp =>
      have hs := cvtPath_sound hp
      split at h
      · cases h
      · next hshape =>
        obtain rfl := Except.ok.inj h
        refine ⟨⟨by simpa using hf, o.srcW.isLt, o.srcH.isLt, ?_, ?_, ?_⟩, rfl⟩
        · have := hs.dstPos; show path.dstBpp < 2 ^ 32; omega
        · intro img _
          simp only [mapPixels_length hs.length]
        · intro h; cases h

/-- The plan of a conversion that passes its checks (R120 step 6). -/
theorem cvtPlan_ok {p : Params} {o : Operands} {f t : Option ColorFormat} {s : Bool} {path : Path}
    (hp : cvtPath p.q8 f s t = some path) (hf : fits p o.srcLen.toNat = true) (hw : o.srcW.toNat ≠ 0)
    (hh : o.srcH.toNat ≠ 0) (hl : o.srcLen.toNat = o.srcW.toNat * o.srcH.toNat * path.srcBpp) :
    cvtPlan p o f s t = .ok
      { diag := false, outW := o.srcW.toNat, outH := o.srcH.toNat, outCh := path.dstBpp, metadata := 0
        bytes := mapPixels path.srcBpp path.pixel (o.srcW.toNat * o.srcH.toNat) } := by
  rw [cvtPlan_spec, hp]
  simp [hw, hh, hl]
  simp [← hl, hf]

/-- A pair without a path fails whatever the shape (R120 steps 1 and 2). -/
theorem cvtPlan_unsupported {p : Params} {o : Operands} {f t : Option ColorFormat} {s : Bool}
    (h : cvtPath p.q8 f s t = none) :
    cvtPlan p o f s t =
      .error (if fits p o.srcLen.toNat then .unsupportedConversion else .resourceLimit) := by
  rw [cvtPlan_spec, h]
  by_cases hf : fits p o.srcLen.toNat = true <;> simp [hf]

/-- The packed word as a number (R124). -/
theorem pack565_toNat (r g b : Byte) :
    (pack565 r g b).toNat = r.toNat / 8 * 2048 + g.toNat / 4 * 32 + b.toNat / 8 := by
  unfold pack565
  have hr := r.isLt
  have hg := g.isLt
  have hb := b.isLt
  rw [show r.toNat / 8 * 2048 + g.toNat / 4 * 32 + b.toNat / 8 =
      2 ^ 11 * (r.toNat / 8) + (2 ^ 5 * (g.toNat / 4) + b.toNat / 8) by omega,
    Nat.two_pow_add_eq_or_of_lt (by omega), Nat.two_pow_add_eq_or_of_lt (by omega)]
  simp only [BitVec.toNat_or, BitVec.toNat_shiftLeft, BitVec.toNat_setWidth, BitVec.toNat_ushiftRight,
    Nat.shiftRight_eq_div_pow, Nat.shiftLeft_eq]
  rw [Nat.or_assoc]
  congr 1
  · omega
  · congr 1 <;> omega

/-- The unpacked channels as numbers (R125). -/
theorem unpack565_toNat (w : BitVec 16) :
    (unpack565 w).1.toNat = w.toNat / 2048 * 8 ∧ (unpack565 w).2.1.toNat = w.toNat / 32 % 64 * 4 ∧
      (unpack565 w).2.2.toNat = w.toNat % 32 * 8 := by
  have := w.isLt
  simp only [unpack565]
  refine ⟨?_, ?_, ?_⟩ <;> simp [Nat.shiftRight_eq_div_pow, Nat.shiftLeft_eq] <;> try omega

/-- Low byte first (20_memory.md R61). -/
theorem wordOf565_toNat (lo hi : Byte) : (wordOf565 lo hi).toNat = lo.toNat + 256 * hi.toNat := by
  have := lo.isLt
  simp only [wordOf565, BitVec.toNat_append, Nat.shiftLeft_eq]
  rw [Nat.mul_comm, ← Nat.two_pow_add_eq_or_of_lt (by omega)]
  omega

/-- A pixel function looks at the bytes of its own pixel only (R122). -/
theorem path_local {q : Quantiser} {f t : Option ColorFormat} {b : Bool} {path : Path}
    (h : cvtPath q f b t = some path) {P P' : Pixel} (hP : ∀ k, k < path.srcBpp → P k = P' k) :
    path.pixel P = path.pixel P' := by
  unfold cvtPath at h
  split at h
  · next f t =>
    cases b <;> cases f <;> cases t <;> simp [plainPath, reversedPath] at h <;> subst h <;> dsimp only at hP ⊢ <;>
      simp [pixelCopy, pixelReplicate, pixelReplicateAlpha, pixelUnpack, pixelUnpackAlpha, pixelPack,
        pixelAddAlpha, pixelToYuv, pixelDropAlpha, pixelFromYuv, pixelPackBgr, pixelSwap, List.range_succ, hP]
  · cases h

end Sys2Proof.Machine
end

