-- ==== Sys2Proof/Laws/Decode.lean ====
section
/-!
SUPPORT. Fields and words: taking a word apart and putting it together are inverse (spec/30_encoding.md R90).
-/
namespace Sys2Proof

/-- The fields of an assembled word are the fields it was assembled from. -/
theorem fieldsOf_assemble (f : Fields) : fieldsOf (assemble f) = f := by
  cases f
  simp only [fieldsOf, assemble, Fields.mk.injEq]
  refine ⟨?_, ?_, ?_, ?_, ?_, ?_, ?_, ?_, ?_⟩ <;>
    (apply BitVec.eq_of_getLsbD_eq; intro i hi
     simp only [BitVec.getLsbD_extractLsb', BitVec.getLsbD_append]
     interval_cases i <;> simp)

/-- Assembling the fields of a word gives the word back: no bit is dropped. -/
theorem assemble_fieldsOf (w : Word) : assemble (fieldsOf w) = w := by
  apply BitVec.eq_of_getLsbD_eq
  intro i hi
  simp only [fieldsOf, assemble, BitVec.getLsbD_extractLsb', BitVec.getLsbD_append]
  interval_cases i <;> simp

/-- The values of the small fields, for case analysis (R90). -/
theorem bit_cases (b : BitVec 1) : b = 0 ∨ b = 1 := by revert b; decide
theorem ik_cases (b : BitVec 2) : b = 0 ∨ b = 1 ∨ b = 2 ∨ b = 3 := by revert b; decide
theorem tag_cases (b : Tag) : b = 0 ∨ b = 1 ∨ b = 2 ∨ b = 3 ∨ b = 4 ∨ b = 5 ∨ b = 6 ∨ b = 7 := by
  revert b; decide
theorem op_cases (b : BitVec 4) :
    b = opCvt ∨ b = opDisp ∨ b = opResize ∨ b = opCrop ∨ b = opPipe ∨ (b = 0 ∨ 6 ≤ b.toNat) := by
  revert b; decide

/-- Fields in the illegal space are no command (R97, R103). -/
theorem decodeFields_of_illegal (w : Word) (f : Fields) (h : illegalFields f = true) : decodeFields w f = .illegal w := by
  obtain ⟨op, src, s, dst, ik, ch, z11, z14, z24⟩ := f
  unfold decodeFields
  by_cases hz : z11 ≠ 0 ∨ z14 ≠ 0 ∨ z24 ≠ 0
  · simp only [hz, if_true]
  · push Not at hz
    obtain ⟨rfl, rfl, rfl⟩ := hz
    rcases op_cases op with rfl | rfl | rfl | rfl | rfl | ho
    · by_cases h1 : ik = 0 <;> by_cases h2 : ch = 0 <;>
        simp_all [illegalFields, opCvt, opDisp, opResize, opCrop, opPipe, usesFrom, usesS, usesTo, usesIk, usesCh]
    · by_cases h1 : ik = 0 <;> by_cases h2 : src = 0 <;> by_cases h3 : s = 0 <;>
        simp_all [illegalFields, opCvt, opDisp, opResize, opCrop, opPipe, usesFrom, usesS, usesTo, usesIk, usesCh]
    · rcases ik_cases ik with rfl | rfl | rfl | rfl <;> by_cases h2 : dst = 0 <;> by_cases h3 : s = 0 <;> by_cases h4 : ch = 0 <;>
        simp_all [illegalFields, opCvt, opDisp, opResize, opCrop, opPipe, usesFrom, usesS, usesTo, usesIk,
          usesCh, kindOfIk]
    · by_cases h1 : ik = 0 <;> by_cases h2 : dst = 0 <;> by_cases h3 : s = 0 <;> by_cases h4 : ch = 0 <;>
        simp_all [illegalFields, opCvt, opDisp, opResize, opCrop, opPipe, usesFrom, usesS, usesTo, usesIk, usesCh]
    · rcases ik_cases ik with rfl | rfl | rfl | rfl <;> by_cases h2 : src = 0 <;> by_cases h3 : s = 0 <;>
        simp_all [illegalFields, opCvt, opDisp, opResize, opCrop, opPipe, usesFrom, usesS, usesTo, usesIk,
          usesCh, kindOfIk]
    · have : op ≠ opCvt ∧ op ≠ opDisp ∧ op ≠ opResize ∧ op ≠ opCrop ∧ op ≠ opPipe := by
        refine ⟨?_, ?_, ?_, ?_, ?_⟩ <;> rintro rfl <;> revert ho <;> decide
      simp [this]

/-- What the decoder makes of the fields of each family is well formed and encodes to those fields (R97, R99). -/
theorem decodeCvt_row (a : Tag) (s : BitVec 1) (b : Tag) :
    WellFormed (decodeCvt a s b) ∧ encode (decodeCvt a s b) = assemble (cvtFields a s b) := by
  rcases bit_cases s with rfl | rfl <;>
  rcases tag_cases a with rfl | rfl | rfl | rfl | rfl | rfl | rfl | rfl <;>
  rcases tag_cases b with rfl | rfl | rfl | rfl | rfl | rfl | rfl | rfl <;> exact ⟨rfl, rfl⟩

theorem decodeDisp_row (ch : Byte) (b : Tag) :
    WellFormed (decodeDisp ch b) ∧ encode (decodeDisp ch b) = assemble (dispFields ch b) := by
  by_cases h1 : ch = 1
  · subst h1; rcases tag_cases b with rfl | rfl | rfl | rfl | rfl | rfl | rfl | rfl <;> exact ⟨rfl, rfl⟩
  by_cases h2 : ch = 2
  · subst h2; rcases tag_cases b with rfl | rfl | rfl | rfl | rfl | rfl | rfl | rfl <;> exact ⟨rfl, rfl⟩
  by_cases h3 : ch = 3
  · subst h3; rcases tag_cases b with rfl | rfl | rfl | rfl | rfl | rfl | rfl | rfl <;> exact ⟨rfl, rfl⟩
  by_cases h4 : ch = 4
  · subst h4; rcases tag_cases b with rfl | rfl | rfl | rfl | rfl | rfl | rfl | rfl <;> exact ⟨rfl, rfl⟩
  have e : decodeDisp ch b = .dispAnyChOther b ch := by
    rw [decodeDisp, if_neg h1, if_neg h2, if_neg h3, if_neg h4]
  rw [e]
  refine ⟨?_, rfl⟩
  have hb : ch.toNat ≠ 1 ∧ ch.toNat ≠ 2 ∧ ch.toNat ≠ 3 ∧ ch.toNat ≠ 4 := by
    refine ⟨?_, ?_, ?_, ?_⟩ <;> intro h <;> first | exact h1 (BitVec.eq_of_toNat_eq h) | exact h2 (BitVec.eq_of_toNat_eq h) | exact h3 (BitVec.eq_of_toNat_eq h) | exact h4 (BitVec.eq_of_toNat_eq h)
  show badChannelCount ch = true
  by_cases h0 : ch = 0
  · subst h0; rfl
  have : ch.toNat ≠ 0 := fun h => h0 (BitVec.eq_of_toNat_eq h)
  simp [badChannelCount]; omega

theorem decodeResize_row (a : Tag) (k : InterpKind) :
    WellFormed (decodeResize a k) ∧ encode (decodeResize a k) = assemble (resizeFields a k) := by
  cases k <;>
  rcases tag_cases a with rfl | rfl | rfl | rfl | rfl | rfl | rfl | rfl <;> exact ⟨rfl, rfl⟩

theorem decodeCrop_row (a : Tag) :
    WellFormed (decodeCrop a) ∧ encode (decodeCrop a) = assemble (cropFields a) := by
  rcases tag_cases a with rfl | rfl | rfl | rfl | rfl | rfl | rfl | rfl <;> exact ⟨rfl, rfl⟩

theorem decodePipe_row (ch : Byte) (a : Tag) (k : InterpKind) :
    WellFormed (decodePipe ch a k) ∧ encode (decodePipe ch a k) = assemble (pipeFields ch a k) := by
  cases k <;>
  rcases tag_cases a with rfl | rfl | rfl | rfl | rfl | rfl | rfl | rfl <;> exact ⟨rfl, rfl⟩

/-- The operation is the low four bits of the word (R90). -/
theorem assemble_op (f : Fields) : (assemble f).toNat % 16 = f.op.toNat := by
  have h : ∀ w : Word, w.toNat % 16 = (w.extractLsb' 0 4).toNat := fun w => by simp
  rw [h]
  exact congrArg (fun g : Fields => g.op.toNat) (fieldsOf_assemble f)

end Sys2Proof
end

