-- ==== Sys2Proof/Laws/Geometry.lean ====
section
/-!
SUPPORT. DISP, RESIZE, CROP and PIPE: what their plans can be (spec/42_dispatch.md R180, spec/43_geometry.md R200,
R207, R220, spec/44_pipeline.md R240).
-/
namespace Sys2Proof.Machine

theorem dispPlan_sound {p : Params} {o : Operands} {ch : Byte} {t : Option ColorFormat} {plan : Plan}
    (h : dispPlan p o ch t = .ok plan) : PlanSound p o plan ∧ plan.diag = false := by
  unfold dispPlan at h
  dsimp only at h
  split at h
  · cases h
  · split at h
    · cases h
    · split at h
      · cases h
      · split at h
        · cases h
        · split at h
          · cases h
          · exact cvtPlan_sound h

/-- What the prologue answers when it passes: the dimensions, and a canonical format's bytes per pixel. -/
theorem prologue_ok {p : Params} {o : Operands} {fmt : Option ColorFormat} {iw ih b : Nat}
    (h : prologue p o fmt = .ok (iw, ih, b)) :
    iw = o.srcW.toNat ∧ ih = o.srcH.toNat ∧ (b = 3 ∨ b = 4) ∧ fits p o.srcLen.toNat = true ∧ iw ≠ 0 ∧ ih ≠ 0 ∧
      o.srcLen.toNat = iw * ih * b := by
  unfold prologue at h
  dsimp only at h
  split at h
  · cases h
  · next hf =>
    split at h
    · cases h
    · next f =>
      split at h
      · cases h
      · next hc =>
        split at h
        · cases h
        · next hz =>
          split at h
          · cases h
          · next hl =>
            simp only [Except.ok.injEq, Prod.mk.injEq] at h
            obtain ⟨rfl, rfl, rfl⟩ := h
            refine ⟨rfl, rfl, ?_, by simpa using hf, fun h0 => hz (.inl h0), fun h0 => hz (.inr h0),
              by simpa using hl⟩
            cases f <;> simp [isCanonical, bpp] at hc ⊢

theorem noOpPlan_sound {p : Params} {o : Operands} {fmt : Option ColorFormat} {iw ih b : Nat} (diag : Bool)
    (h : prologue p o fmt = .ok (iw, ih, b)) : PlanSound p o (noOpPlan diag iw ih b) := by
  obtain ⟨rfl, rfl, hb, hf, -, -, hl⟩ := prologue_ok h
  refine ⟨hf, o.srcW.isLt, o.srcH.isLt, ?_, ?_, ?_⟩
  · show b < 2 ^ 32
    omega
  · intro img hi
    simpa [noOpPlan, hi] using hl
  · intro _
    exact ⟨rfl, rfl, hl, rfl⟩

theorem resizePlan_sound {p : Params} {o : Operands} {fmt : Option ColorFormat} {kind : InterpKind} {plan : Plan}
    (h : resizePlan p o fmt kind = .ok plan) : PlanSound p o plan := by
  unfold resizePlan at h
  split at h
  · cases h
  · next iw ih b hp =>
    split at h
    · obtain rfl := Except.ok.inj h
      exact noOpPlan_sound _ hp
    · next nw nh _ =>
      split at h
      · obtain rfl := Except.ok.inj h
        exact noOpPlan_sound _ hp
      · split at h
        · cases h
        · next hlim =>
          obtain rfl := Except.ok.inj h
          obtain ⟨-, -, hb, hf, -, -, -⟩ := prologue_ok hp
          refine ⟨hf, ?_, ?_, ?_, ?_, ?_⟩
          · show nw < 2 ^ 32
            omega
          · show nh < 2 ^ 32
            omega
          · show b < 2 ^ 32
            omega
          · intro img _
            exact resample_length p kind b img iw ih nw nh
          · intro h; cases h

theorem cropPlan_sound {p : Params} {o : Operands} {fmt : Option ColorFormat} {plan : Plan}
    (h : cropPlan p o fmt = .ok plan) : PlanSound p o plan := by
  unfold cropPlan at h
  split at h
  · cases h
  · next iw ih b hp =>
    dsimp only at h
    split at h
    · obtain rfl := Except.ok.inj h
      exact noOpPlan_sound _ hp
    · split at h
      · obtain rfl := Except.ok.inj h
        exact noOpPlan_sound _ hp
      · obtain rfl := Except.ok.inj h
        obtain ⟨-, -, hb, hf, -, -, -⟩ := prologue_ok hp
        refine ⟨hf, o.argW.isLt, o.argH.isLt, ?_, ?_, ?_⟩
        · show b < 2 ^ 32
          omega
        · intro img _
          exact buildImage_length _ _ b _
        · intro h; cases h

/-- The path of stage 1 always exists (44_pipeline.md R241). -/
theorem stage1_exists (q : Quantiser) {ch : Byte} {f : ColorFormat} (h : formatOfChannels ch = some f)
    (out : Option ColorFormat) : ∃ path, cvtPath q (some f) false (some (canonicalOf out)) = some path := by
  have hc : canonicalOf out = .rgb888 ∨ canonicalOf out = .rgba8888 := by
    unfold canonicalOf; split <;> simp
  have hf : f ≠ .yuv888 := by
    rintro rfl
    unfold formatOfChannels at h
    split at h
    · cases h
    · split at h
      · cases h
      · split at h
        · cases h
        · split at h <;> cases h
  rcases hc with hc | hc <;> rw [hc] <;> cases f <;> simp [cvtPath, plainPath] at hf ⊢

theorem pipePlan_sound {p : Params} {o : Operands} {ch : Byte} {out : Option ColorFormat} {kind : InterpKind}
    {plan : Plan} (h : pipePlan p o ch out kind = .ok plan) : PlanSound p o plan ∧ plan.diag = false := by
  unfold pipePlan at h
  dsimp only at h
  split at h
  · cases h
  · next hf =>
    split at h
    · cases h
    · next f hch =>
      split at h
      · cases h
      · split at h
        · cases h
        · split at h
          · cases h
          · split at h
            · cases h
            · split at h
              · cases h
              · split at h
                · next stage1 stage3 h1 h3 =>
                  obtain rfl := Except.ok.inj h
                  have hs := cvtPath_sound h3
                  refine ⟨⟨by simpa using hf, ?_, ?_, ?_, ?_, ?_⟩, rfl⟩
                  · dsimp only; split <;> exact BitVec.isLt _
                  · dsimp only; split <;> exact BitVec.isLt _
                  · have := hs.dstPos
                    show stage3.dstBpp < 2 ^ 32
                    omega
                  · intro img _
                    exact mapPixels_length hs.length _ _ _
                  · intro h; cases h
                · cases h

/-- The channel counts with a source format are 1 to 4 (42_dispatch.md R181). -/
theorem formatOfChannels_range {ch : Byte} {f : ColorFormat} (h : formatOfChannels ch = some f) :
    1 ≤ ch.toNat ∧ ch.toNat ≤ 4 := by
  unfold formatOfChannels at h
  split at h
  · rename_i hx; subst hx; decide
  · split at h
    · rename_i hx; subst hx; decide
    · split at h
      · rename_i hx; subst hx; decide
      · split at h
        · rename_i hx; subst hx; decide
        · cases h

/-- The prologue passes on a well-shaped canonical image (43_geometry.md R200). -/
theorem prologue_pass {p : Params} {o : Operands} {f : ColorFormat} (hc : isCanonical (some f) = true)
    (hf : fits p o.srcLen.toNat = true) (hw : o.srcW.toNat ≠ 0) (hh : o.srcH.toNat ≠ 0)
    (hl : o.srcLen.toNat = o.srcW.toNat * o.srcH.toNat * bpp f) :
    prologue p o (some f) = .ok (o.srcW.toNat, o.srcH.toNat, bpp f) := by
  rw [hl] at hf
  simp [prologue, hc, hw, hh, hl, hf]

/-- The plan of a pipeline that passes its checks (44_pipeline.md R240). -/
theorem pipePlan_ok {p : Params} {o : Operands} {ch : Byte} {f out : ColorFormat} {kind : InterpKind}
    {stage1 stage3 : Path} (hch : formatOfChannels ch = some f) (hno : ¬(ch = 1 ∧ out = .rgb565))
    (h1 : cvtPath p.q8 (some f) false (some (canonicalOf (some out))) = some stage1)
    (h3 : cvtPath p.q8 (some (canonicalOf (some out))) false (some out) = some stage3)
    (hf : fits p o.srcLen.toNat = true) (hw : o.srcW.toNat ≠ 0) (hh : o.srcH.toNat ≠ 0)
    (hl : o.srcLen.toNat = o.srcW.toNat * o.srcH.toNat * ch.toNat)
    (hf1 : fits p (o.srcW.toNat * o.srcH.toNat * bpp (canonicalOf (some out))) = true)
    (hf2 : o.argW.toNat ≠ 0 ∧ o.argH.toNat ≠ 0 →
      fits p (o.argW.toNat * o.argH.toNat * bpp (canonicalOf (some out))) = true) :
    pipePlan p o ch (some out) kind =
      let w2 := if o.argW.toNat ≠ 0 ∧ o.argH.toNat ≠ 0 then o.argW.toNat else o.srcW.toNat
      let h2 := if o.argW.toNat ≠ 0 ∧ o.argH.toNat ≠ 0 then o.argH.toNat else o.srcH.toNat
      let b := bpp (canonicalOf (some out))
      .ok
        { diag := false, outW := w2, outH := h2, outCh := stage3.dstBpp, metadata := o.metaIn
          bytes := fun img =>
            mapPixels b stage3.pixel (w2 * h2)
              (pipeStage2 p kind b o.srcW.toNat o.srcH.toNat o.argW.toNat o.argH.toNat
                (mapPixels stage1.srcBpp stage1.pixel (o.srcW.toNat * o.srcH.toNat) img)) } := by
  unfold pipePlan
  simp only [hch, h1, h3]
  rw [if_neg (by simp [hf]), if_neg (by simpa using hno), if_neg (by tauto), if_neg (by simpa using hl),
    if_neg (by simp [hf1]), if_neg (by rintro ⟨a, b⟩; simp [hf2 a] at b)]

end Sys2Proof.Machine
end

