-- ==== Sys2Proof/Laws/Commands.lean ====
section
/-!
SUPPORT. Every command at once: its checks and its plan, and what `exec` can do (spec/10_state.md R33, R34).
-/
namespace Sys2Proof.Machine

/-- The checks and the plan of a command, a function of the parameters and the operand registers alone. -/
def commandPlan (i : Instr) (p : Params) (o : Operands) : Except ErrKind Plan :=
  match i with
  | .cvtGray8Gray8 => cvtPlan p o (some .gray8) false (some .gray8)
  | .cvtGray8Rgb565 => cvtPlan p o (some .gray8) false (some .rgb565)
  | .cvtGray8Rgb888 => cvtPlan p o (some .gray8) false (some .rgb888)
  | .cvtGray8Rgba8888 => cvtPlan p o (some .gray8) false (some .rgba8888)
  | .cvtGray8Yuv888 => cvtPlan p o (some .gray8) false (some .yuv888)
  | .cvtRgb565Gray8 => cvtPlan p o (some .rgb565) false (some .gray8)
  | .cvtRgb565Rgb565 => cvtPlan p o (some .rgb565) false (some .rgb565)
  | .cvtRgb565Rgb888 => cvtPlan p o (some .rgb565) false (some .rgb888)
  | .cvtRgb565Rgba8888 => cvtPlan p o (some .rgb565) false (some .rgba8888)
  | .cvtRgb565Yuv888 => cvtPlan p o (some .rgb565) false (some .yuv888)
  | .cvtRgb888Gray8 => cvtPlan p o (some .rgb888) false (some .gray8)
  | .cvtRgb888Rgb565 => cvtPlan p o (some .rgb888) false (some .rgb565)
  | .cvtRgb888Rgb888 => cvtPlan p o (some .rgb888) false (some .rgb888)
  | .cvtRgb888Rgba8888 => cvtPlan p o (some .rgb888) false (some .rgba8888)
  | .cvtRgb888Yuv888 => cvtPlan p o (some .rgb888) false (some .yuv888)
  | .cvtRgba8888Gray8 => cvtPlan p o (some .rgba8888) false (some .gray8)
  | .cvtRgba8888Rgb565 => cvtPlan p o (some .rgba8888) false (some .rgb565)
  | .cvtRgba8888Rgb888 => cvtPlan p o (some .rgba8888) false (some .rgb888)
  | .cvtRgba8888Rgba8888 => cvtPlan p o (some .rgba8888) false (some .rgba8888)
  | .cvtRgba8888Yuv888 => cvtPlan p o (some .rgba8888) false (some .yuv888)
  | .cvtYuv888Gray8 => cvtPlan p o (some .yuv888) false (some .gray8)
  | .cvtYuv888Rgb565 => cvtPlan p o (some .yuv888) false (some .rgb565)
  | .cvtYuv888Rgb888 => cvtPlan p o (some .yuv888) false (some .rgb888)
  | .cvtYuv888Rgba8888 => cvtPlan p o (some .yuv888) false (some .rgba8888)
  | .cvtYuv888Yuv888 => cvtPlan p o (some .yuv888) false (some .yuv888)
  | .cvtBgr888Rgb565 => cvtPlan p o (some .rgb888) true (some .rgb565)
  | .cvtBgr888Rgb888 => cvtPlan p o (some .rgb888) true (some .rgb888)
  | .cvtS1Other src dst => cvtPlan p o (formatOfTag src) true (formatOfTag dst)
  | .cvtTag src dst => cvtPlan p o (formatOfTag src) false (formatOfTag dst)
  | .dispRgb888Ch1 => dispPlan p o 1 (some .rgb888)
  | .dispRgba8888Ch1 => dispPlan p o 1 (some .rgba8888)
  | .dispRgb888Ch2 => dispPlan p o 2 (some .rgb888)
  | .dispRgba8888Ch2 => dispPlan p o 2 (some .rgba8888)
  | .dispRgb888Ch3 => dispPlan p o 3 (some .rgb888)
  | .dispRgba8888Ch3 => dispPlan p o 3 (some .rgba8888)
  | .dispRgb888Ch4 => dispPlan p o 4 (some .rgb888)
  | .dispRgba8888Ch4 => dispPlan p o 4 (some .rgba8888)
  | .dispOtherCh1 target => dispPlan p o 1 (formatOfTag target)
  | .dispOtherCh2 target => dispPlan p o 2 (formatOfTag target)
  | .dispOtherCh3 target => dispPlan p o 3 (formatOfTag target)
  | .dispOtherCh4 target => dispPlan p o 4 (formatOfTag target)
  | .dispAnyChOther target ch => dispPlan p o ch (formatOfTag target)
  | .resizeNnRgb888 => resizePlan p o (some .rgb888) .nearest
  | .resizeBlRgb888 => resizePlan p o (some .rgb888) .bilinear
  | .resizeNnRgba8888 => resizePlan p o (some .rgba8888) .nearest
  | .resizeBlRgba8888 => resizePlan p o (some .rgba8888) .bilinear
  | .resizeOther fmt kind => resizePlan p o (formatOfTag fmt) kind
  | .cropRgb888 => cropPlan p o (some .rgb888)
  | .cropRgba8888 => cropPlan p o (some .rgba8888)
  | .cropOther fmt => cropPlan p o (formatOfTag fmt)
  | .pipeRgb565Nn ch => pipePlan p o ch (some .rgb565) .nearest
  | .pipeRgb565Bl ch => pipePlan p o ch (some .rgb565) .bilinear
  | .pipeRgb888Nn ch => pipePlan p o ch (some .rgb888) .nearest
  | .pipeRgb888Bl ch => pipePlan p o ch (some .rgb888) .bilinear
  | .pipeRgba8888Nn ch => pipePlan p o ch (some .rgba8888) .nearest
  | .pipeRgba8888Bl ch => pipePlan p o ch (some .rgba8888) .bilinear
  | .pipeYuv888Nn ch => pipePlan p o ch (some .yuv888) .nearest
  | .pipeYuv888Bl ch => pipePlan p o ch (some .yuv888) .bilinear
  | .pipeGray8Nn ch => pipePlan p o ch (some .gray8) .nearest
  | .pipeGray8Bl ch => pipePlan p o ch (some .gray8) .bilinear
  | .pipeTag out kind ch => pipePlan p o ch (formatOfTag out) kind
  | .illegal _ => .error .illegalCommand

/-- Every command is its plan, finished. -/
theorem exec_eq_finish (i : Instr) (s : State) : exec i s = finish s (commandPlan i s.params s.ops) := by
  cases i <;> rfl

/-- Every plan is sound. -/
theorem commandPlan_sound {i : Instr} {p : Params} {o : Operands} {plan : Plan}
    (h : commandPlan i p o = .ok plan) : PlanSound p o plan := by
  cases i <;> simp only [commandPlan] at h <;> first
    | exact (cvtPlan_sound h).1
    | exact (dispPlan_sound h).1
    | exact resizePlan_sound h
    | exact cropPlan_sound h
    | exact (pipePlan_sound h).1
    | exact absurd h (by simp)

/-- What a command can do when it answers a next state: end with an error, or commit an output of the announced shape
computed from the source image. -/
theorem exec_cases {i : Instr} {s t : State} (h : exec i s = .next t) :
    (∃ e, t = raiseError s e ∧ ∀ m, exec i { s with src := m } = .next (raiseError { s with src := m } e)) ∨
    (∃ plan img, commandPlan i s.params s.ops = .ok plan ∧ PlanSound s.params s.ops plan ∧
      fits s.params (plan.outW * plan.outH * plan.outCh) = true ∧
      readRange s.src 0 s.ops.srcLen.toNat = some img ∧
      (plan.bytes img).length = plan.outW * plan.outH * plan.outCh ∧
      t = commitSuccess s plan (plan.bytes img)) := by
  rw [exec_eq_finish] at h
  rcases finish_cases h with ⟨e, hr, rfl⟩ | ⟨plan, hr, hf, rfl⟩ | ⟨plan, img, hr, hf, hi, rfl⟩
  · left
    refine ⟨e, rfl, fun m => ?_⟩
    rw [exec_eq_finish, hr, finish_error]
  · left
    refine ⟨_, rfl, fun m => ?_⟩
    rw [exec_eq_finish, hr]
    exact finish_tooLong hf
  · right
    have hs := commandPlan_sound hr
    exact ⟨plan, img, hr, hs, hf, hi, hs.length img (readRange_spec hi).1, rfl⟩

/-- A written source reads as an image of SRC_LEN bytes, byte `a` of it the memory's. -/
theorem sourceImage {s : State} (h : SourceWritten s) :
    ∃ img, readRange s.src 0 s.ops.srcLen.toNat = some img ∧ img.length = s.ops.srcLen.toNat ∧
      ∀ a, a < s.ops.srcLen.toNat → readByte s.src a = some (img.getD a 0) := by
  obtain ⟨img, hi⟩ := (readRange_isSome (m := s.src) (a := 0) (n := s.ops.srcLen.toNat)).2
    (fun k hk => by simpa using h k hk)
  obtain ⟨hl, hr⟩ := readRange_spec hi
  exact ⟨img, hi, hl, fun a ha => by simpa using hr a ha⟩

/-- A command whose checks pass, on a written source and with an output that fits, commits the output bytes. -/
theorem exec_ok {i : Instr} {s : State} {plan : Plan} {img : List Byte}
    (hp : commandPlan i s.params s.ops = .ok plan)
    (hf : fits s.params (plan.outW * plan.outH * plan.outCh) = true)
    (hi : readRange s.src 0 s.ops.srcLen.toNat = some img) :
    exec i s = .next (commitSuccess s plan (plan.bytes img)) := by
  rw [exec_eq_finish, hp]
  exact finish_ok hf hi

/-- A command whose checks fail ends with that error. -/
theorem exec_error {i : Instr} {s : State} {e : ErrKind} (hp : commandPlan i s.params s.ops = .error e) :
    exec i s = .next (raiseError s e) := by
  rw [exec_eq_finish, hp, finish_error]

/-- A command whose checks pass but whose output does not fit ends with ResourceLimit (R34). -/
theorem exec_tooLong {i : Instr} {s : State} {plan : Plan} (hp : commandPlan i s.params s.ops = .ok plan)
    (hf : fits s.params (plan.outW * plan.outH * plan.outCh) = false) :
    exec i s = .next (raiseError s .resourceLimit) := by
  rw [exec_eq_finish, hp]
  exact finish_tooLong hf

/-- DST after a successful commit (10_state.md R34). -/
theorem readByte_commitSuccess (s : State) (plan : Plan) (out : List Byte) (a : Nat) :
    readByte (commitSuccess s plan out).dst a = if a < out.length then some (out.getD a 0) else none :=
  readByte_memoryOfBytes out a

/-! The row that a word of each family selects runs the family's general command (30_encoding.md R97). -/

theorem exec_decodeCvt (a : Tag) (b : BitVec 1) (c : Tag) (s : State) :
    exec (decodeCvt a b c) s = cvt (formatOfTag a) (b == 1) (formatOfTag c) s := by
  rcases bit_cases b with rfl | rfl <;>
    rcases tag_cases a with rfl | rfl | rfl | rfl | rfl | rfl | rfl | rfl <;>
    rcases tag_cases c with rfl | rfl | rfl | rfl | rfl | rfl | rfl | rfl <;> rfl

theorem exec_decodeDisp (ch : Byte) (c : Tag) (s : State) :
    exec (decodeDisp ch c) s = disp ch (formatOfTag c) s := by
  by_cases h1 : ch = 1
  · subst h1; rcases tag_cases c with rfl | rfl | rfl | rfl | rfl | rfl | rfl | rfl <;> rfl
  by_cases h2 : ch = 2
  · subst h2; rcases tag_cases c with rfl | rfl | rfl | rfl | rfl | rfl | rfl | rfl <;> rfl
  by_cases h3 : ch = 3
  · subst h3; rcases tag_cases c with rfl | rfl | rfl | rfl | rfl | rfl | rfl | rfl <;> rfl
  by_cases h4 : ch = 4
  · subst h4; rcases tag_cases c with rfl | rfl | rfl | rfl | rfl | rfl | rfl | rfl <;> rfl
  rw [decodeDisp, if_neg h1, if_neg h2, if_neg h3, if_neg h4]
  rfl

theorem exec_decodeResize (a : Tag) (k : InterpKind) (s : State) :
    exec (decodeResize a k) s = resize (formatOfTag a) k s := by
  cases k <;> rcases tag_cases a with rfl | rfl | rfl | rfl | rfl | rfl | rfl | rfl <;> rfl

theorem exec_decodeCrop (a : Tag) (s : State) : exec (decodeCrop a) s = crop (formatOfTag a) s := by
  rcases tag_cases a with rfl | rfl | rfl | rfl | rfl | rfl | rfl | rfl <;> rfl

theorem exec_decodePipe (ch : Byte) (a : Tag) (k : InterpKind) (s : State) :
    exec (decodePipe ch a k) s = pipe ch (formatOfTag a) k s := by
  cases k <;> rcases tag_cases a with rfl | rfl | rfl | rfl | rfl | rfl | rfl | rfl <;> rfl

end Sys2Proof.Machine
end

