-- ==== Sys2Proof/Laws/HostBus.lean ====
section
/-!
SUPPORT. The host's accesses: the register map, the copy of `mv`, and one step of a script (spec/10_state.md R25,
spec/30_encoding.md R101).
-/
namespace Sys2Proof.Machine

/-- A step performs the first action of the script on the state in which the rest is left. -/
theorem step_cons {s : State} {a : HostAction} {rest : List HostAction} (h : s.script = a :: rest) :
    step s = perform a { s with script := rest } := by
  rw [step, performNext, h]

/-- From offset 0x3C on there is no register (R25). -/
theorem regAt_none {index : Nat} (h : 15 ≤ index) : regAt index = none := by
  unfold regAt
  exact List.getElem?_eq_none (by simpa using h)

/-- What the word table hands back is the word itself. -/
theorem commandWord_toNat (w : Word) : commandWord 32 w.toNat = w := by
  have := w.isLt
  apply BitVec.eq_of_toNat_eq
  simp [commandWord]
  omega

/-- In a sound window the bytes of DST that hold a value are those below OUT_LEN (10_state.md R32). -/
theorem dst_listed_iff {s : State} (h : WindowSound s) (a : Nat) :
    (∃ b, readByte s.dst a = some b) ↔ a < s.res.outLen := by
  rw [exists_readByte_iff_mem, h.window, List.mem_range]

@[simp] theorem copyBytes_params (n : Nat) (s : State) : (copyBytes n s).params = s.params := by
  induction n with
  | zero => rfl
  | succ n ih => simp [copyBytes, ih]

/-- A copy keeps the canonical form of SRC. -/
theorem copyBytes_src_wf (n : Nat) {s : State} (h : s.src.wf) : (copyBytes n s).src.wf := by
  induction n with
  | zero => exact h
  | succ n ih =>
    simp only [copyBytes, hostWriteSrc_src, takeDst_src]
    split
    · exact writeByte_wf ih _ _
    · exact ih

/-- A host write of SRC keeps its canonical form. -/
theorem hostWriteSrc_src_wf {s : State} (h : s.src.wf) (a : Nat) (b : Byte) : (hostWriteSrc a b s).src.wf := by
  rw [hostWriteSrc_src]
  split
  · exact writeByte_wf h a b
  · exact h

/-- The copy of `mv` writes the window's bytes to the front of SRC and changes nothing else. -/
theorem copyBytes_spec {s : State} (h : WindowSound s) {n : Nat} (hn : n ≤ s.res.outLen) :
    (∀ a, readByte (copyBytes n s).src a = if a < n then readByte s.dst a else readByte s.src a) ∧
      copyBytes n s = { s with src := (copyBytes n s).src } := by
  induction n with
  | zero => exact ⟨fun a => by simp [copyBytes], rfl⟩
  | succ n ih =>
    obtain ⟨h1, h2⟩ := ih (by omega)
    obtain ⟨b, hb⟩ := (dst_listed_iff h n).2 (by omega)
    have hd : (copyBytes n s).dst = s.dst := by rw [h2]
    have hc : inCap s.params n = true := inCap_of_fits h.fitsCap (by omega)
    have ht : takeDst n (copyBytes n s) = (b, copyBytes n s) := takeDst_listed _ _ (by rw [hd]; exact hb)
    have he : copyBytes (n + 1) s = { copyBytes n s with src := writeByte (copyBytes n s).src n b } := by
      simp only [copyBytes, ht, hostWriteSrc, copyBytes_params, hc, if_true]
    rw [he]
    constructor
    · intro a
      simp only [readByte_writeByte, h1]
      by_cases ha : a = n
      · subst ha; simp [hb]
      · by_cases ha2 : a < n
        · simp [ha, ha2, Nat.lt_succ_of_lt ha2]
        · have : ¬ a < n + 1 := by omega
          simp [ha, ha2, this]
    · conv_lhs => rw [h2]

end Sys2Proof.Machine
end

