-- ==== Sys2Proof/Laws/HostScript.lean ====
section
/-!
SUPPORT. The entry points: their script comes down to one command on the loaded image, and what their results are
after each of the two commits (spec/30_encoding.md R101, spec/10_state.md R34); the numbers of a fleet.
-/
namespace Sys2Proof.Machine

/-! ## Results -/

@[simp] theorem statusErr_statusOfError (e : ErrKind) : statusErr (statusOfError e) = errCode e := by
  cases e <;> decide
@[simp] theorem statusErr_statusOfSuccess (diag : Bool) : statusErr (statusOfSuccess diag) = 0 := by
  cases diag <;> decide
@[simp] theorem statusDiag_statusOfError (e : ErrKind) : statusDiag (statusOfError e) = false := by
  cases e <;> decide
@[simp] theorem statusDiag_statusOfSuccess (diag : Bool) : statusDiag (statusOfSuccess diag) = diag := by
  cases diag <;> decide
@[simp] theorem errCode_ne_zero (e : ErrKind) : errCode e ≠ 0 := by cases e <;> decide

@[simp] theorem kindOfCode_errCode (e : ErrKind) : kindOfCode (errCode e) = some e := by cases e <;> rfl

/-- In a sound window the output bytes are there (10_state.md R32). -/
theorem outputBytes_isSome {s : State} (h : WindowSound s) : ∃ out, outputBytes s = some out :=
  readRange_isSome.2 fun k hk => (dst_listed_iff h (0 + k)).2 (by omega)

@[simp] theorem outputBytes_raiseError (s : State) (e : ErrKind) : outputBytes (raiseError s e) = some [] := rfl

@[simp] theorem outputBytes_commitSuccess (s : State) (p : Plan) (out : List Byte) :
    outputBytes (commitSuccess s p out) = some out := readRange_memoryOfBytes out

@[simp] theorem entryResult_raiseError (s : State) (e : ErrKind) :
    entryResult (raiseError s e) = .error (some e) := by
  simp only [entryResult, raiseError_status, statusErr_statusOfError, if_neg (errCode_ne_zero e), kindOfCode_errCode]

@[simp] theorem entryResult_commitSuccess (s : State) (p : Plan) (out : List Byte) :
    entryResult (commitSuccess s p out) = .ok (some out) := by
  simp only [entryResult, commitSuccess_status, statusErr_statusOfSuccess, if_true, outputBytes_commitSuccess]

@[simp] theorem imageResult_raiseError (s : State) (e : ErrKind) :
    imageResult (raiseError s e) = { width := 0, height := 0, bytes := some [], diag := false } := by
  simp only [imageResult, outputBytes_raiseError, raiseError_status, statusDiag_statusOfError]
  rfl

@[simp] theorem imageResult_commitSuccess (s : State) (p : Plan) (out : List Byte) :
    imageResult (commitSuccess s p out) =
      { width := BitVec.ofNat 32 p.outW, height := BitVec.ofNat 32 p.outH, bytes := some out, diag := p.diag } := by
  simp only [imageResult, outputBytes_commitSuccess, commitSuccess_status, statusDiag_statusOfSuccess]
  rfl

@[simp] theorem pipelineResult_raiseError (s : State) (e : ErrKind) :
    pipelineResult (raiseError s e) =
      { width := 0, height := 0, channelCount := 0, metadata := 0, buffer := some [], err := errCode e } := by
  simp only [pipelineResult, outputBytes_raiseError, raiseError_status, statusErr_statusOfError]
  rfl

@[simp] theorem pipelineResult_commitSuccess (s : State) (p : Plan) (out : List Byte) :
    pipelineResult (commitSuccess s p out) =
      { width := BitVec.ofNat 32 p.outW, height := BitVec.ofNat 32 p.outH, channelCount := BitVec.ofNat 32 p.outCh
        metadata := p.metadata, buffer := some out, err := 0 } := by
  simp only [pipelineResult, outputBytes_commitSuccess, commitSuccess_status, statusErr_statusOfSuccess]
  rfl

/-! ## Scripts -/

theorem loadImage_eq_none_iff {buffer : List Byte} {w h : Word} :
    loadImage buffer w h = none ↔ 2 ^ 32 ≤ buffer.length := by
  unfold loadImage
  split <;> simp <;> omega

/-- SRC after `ld SRC, a, bytes`. -/
def loadedSrc (m : Memory) (a : Nat) : List Byte → Memory
  | [] => m
  | b :: bs => loadedSrc (writeByte m a b) (a + 1) bs

theorem readByte_loadedSrc (m : Memory) (a : Nat) (bs : List Byte) (k : Nat) :
    readByte (loadedSrc m a bs) k = if a ≤ k ∧ k < a + bs.length then bs[k - a]? else readByte m k := by
  induction bs generalizing m a with
  | nil => simp [loadedSrc]
  | cons b bs ih =>
    rw [loadedSrc, ih, readByte_writeByte]
    by_cases hk : k = a
    · subst hk; simp
    · by_cases ha : a + 1 ≤ k ∧ k < a + 1 + bs.length
      · rw [if_pos ha, if_pos (by simp; omega), show k - a = (k - (a + 1)) + 1 by omega, List.getElem?_cons_succ]
      · rw [if_neg ha, if_neg hk, if_neg (by simp; omega)]

/-- The loaded image is what the command will read. -/
theorem readRange_loadedSrc (m : Memory) (bs : List Byte) : readRange (loadedSrc m 0 bs) 0 bs.length = some bs := by
  rw [← readRange_memoryOfBytes bs]
  refine readRange_congr fun k hk => ?_
  rw [Nat.zero_add, readByte_loadedSrc, readByte_memoryOfBytes, if_pos ⟨Nat.zero_le _, by omega⟩, if_pos hk]
  simp [hk]

/-- A run goes through the first action of its script. -/
theorem run_cons {s t : State} {a : HostAction} {rest : List HostAction} (k : Nat) (hs : s.script = a :: rest)
    (h : perform a { s with script := rest } = .next t) :
    Sys2Proof.core.run (k + 1) s = Sys2Proof.core.run k t := by
  simp only [Host.Core.run, Sys2Proof.core]
  rw [step_cons hs, h]

@[simp] theorem length_loadBytes (a : Nat) (bs : List Byte) : (loadBytes a bs).length = bs.length := by
  induction bs generalizing a with
  | nil => rfl
  | cons b bs ih => simp [loadBytes, ih]

/-- `ld SRC` of bytes that lie in SRC. -/
theorem run_loadBytes {s : State} {a : Nat} {bs : List Byte} {rest : List HostAction} (k : Nat)
    (hs : s.script = loadBytes a bs ++ rest) (hf : fits s.params (a + bs.length) = true) :
    Sys2Proof.core.run (bs.length + k) s =
      Sys2Proof.core.run k { s with script := rest, src := loadedSrc s.src a bs } := by
  induction bs generalizing a s with
  | nil =>
    obtain rfl : s.script = rest := hs
    exact congrArg (Sys2Proof.core.run · s) (Nat.zero_add k)
  | cons b bs ih =>
    have hin : inCap s.params a = true := inCap_of_fits hf (by simp)
    have hl : (b :: bs).length + k = (bs.length + k) + 1 := by simp; omega
    rw [hl]
    refine Eq.trans (run_cons (t := { s with script := loadBytes (a + 1) bs ++ rest, src := writeByte s.src a b }) _
      hs ?_) (ih rfl ?_)
    · simp [perform, hostWriteSrc, hin]
    · rw [← hf]; congr 1; simp; omega

/-- `wr` of an operand register. -/
theorem run_writeReg {s : State} {i : Nat} {v : Word} {rest : List HostAction} (r : RegName) (k : Nat)
    (hs : s.script = .writeReg i v :: rest) (hr : regAt i = some r) (hc : r ≠ .cmd) :
    Sys2Proof.core.run (k + 1) s = Sys2Proof.core.run k { s with script := rest, ops := writeOperand s.ops v r } := by
  refine run_cons k hs ?_
  cases r <;> first | exact absurd rfl hc | simp [perform, hostWriteReg, hr]

/-- `go` as the last action. -/
theorem run_go {s : State} {w : Word} (hs : s.script = [goWord w]) :
    Sys2Proof.core.run 1 s = exec (decode w) { s with script := [], cmd := w } := by
  have h : perform (goWord w) { s with script := [] } = exec (decode w) { s with script := [], cmd := w } := rfl
  simp only [Host.Core.run, Sys2Proof.core]
  rw [step_cons hs, h]
  cases exec (decode w) { s with script := [], cmd := w } <;> rfl

/-- The state in which the command of an entry point runs: its image in SRC, the image's shape and the command's
further operands in the operand registers, nothing left in the script. -/
def entryState (s : State) (buffer : List Byte) (w h : Word) (f : Operands → Operands) (command : Fields) : State :=
  { s with
    cmd := assemble command
    ops := f { s.ops with srcLen := BitVec.ofNat 32 buffer.length, srcW := w, srcH := h }
    src := loadedSrc s.src 0 buffer
    script := [] }

/-- An entry point whose buffer lies in SRC comes down to one command. The further operands are any writes of operand
registers, whose joint effect is `f`. -/
theorem runScript_entryScript {s : State} {buffer : List Byte} {w h : Word} {operands script : List HostAction}
    {command : Fields} {f : Operands → Operands} (hs : entryScript buffer w h operands command = some script)
    (hf : fits s.params buffer.length = true)
    (ho : ∀ (k : Nat) (t : State) (rest : List HostAction), t.script = operands ++ rest →
      Sys2Proof.core.run (operands.length + k) t = Sys2Proof.core.run k { t with script := rest, ops := f t.ops }) :
    runScript script s = exec (decode (assemble command)) (entryState s buffer w h f command) := by
  unfold entryScript loadImage at hs
  split at hs
  case isFalse => cases hs
  obtain rfl := Option.some.inj hs
  rw [runScript]
  have hl : (loadBytes 0 buffer ++ [wrSrcLen (BitVec.ofNat 32 buffer.length), wrSrcW w, wrSrcH h] ++ operands ++
      [goWord (assemble command)]).length = buffer.length + (operands.length + 1 + 1 + 1 + 1) := by
    simp only [List.length_append, length_loadBytes, List.length_cons, List.length_nil]
    omega
  dsimp only
  rw [hl, List.append_assoc, List.append_assoc]
  refine Eq.trans (run_loadBytes _ rfl (by simpa using hf)) ?_
  refine Eq.trans (run_writeReg .srcLen _ rfl rfl (by decide)) ?_
  refine Eq.trans (run_writeReg .srcW _ rfl rfl (by decide)) ?_
  refine Eq.trans (run_writeReg .srcH _ rfl rfl (by decide)) ?_
  exact Eq.trans (ho 1 _ _ rfl) (run_go rfl)

/-- `convert`, `dispatch_to_canonical`: no further operand. -/
theorem runScript_noOperands {s : State} {buffer : List Byte} {w h : Word} {script : List HostAction}
    {command : Fields} (hs : entryScript buffer w h [] command = some script)
    (hf : fits s.params buffer.length = true) :
    runScript script s = exec (decode (assemble command)) (entryState s buffer w h id command) :=
  runScript_entryScript hs hf fun k t rest ht => by
    obtain rfl : t.script = rest := ht
    exact congrArg (Sys2Proof.core.run · t) (Nat.zero_add k)

/-- `resize`: ARG_W and ARG_H. -/
theorem runScript_resizeEntry {s : State} {image : List Byte} {iw ih w h : Word} {fmt : ColorFormat}
    {kind : InterpKind} {script : List HostAction} (hs : (resizeEntry image iw ih fmt w h kind).script = some script)
    (hf : fits s.params image.length = true) :
    runScript script s = exec (decode (assemble (resizeFields (tagOfFormat fmt) kind)))
      (entryState s image iw ih (fun o => { o with argW := w, argH := h }) (resizeFields (tagOfFormat fmt) kind)) :=
  runScript_entryScript hs hf fun k t rest ht => by
    rw [show [wrArgW w, wrArgH h].length + k = k + 1 + 1 by simp; omega]
    refine Eq.trans (run_writeReg .argW _ ht rfl (by decide)) ?_
    exact run_writeReg .argH _ rfl rfl (by decide)

/-- `crop`: ARG_W, ARG_H, ARG_X, ARG_Y. -/
theorem runScript_cropEntry {s : State} {image : List Byte} {iw ih x y w h : Word} {fmt : ColorFormat}
    {script : List HostAction} (hs : (cropEntry image iw ih fmt x y w h).script = some script)
    (hf : fits s.params image.length = true) :
    runScript script s = exec (decode (assemble (cropFields (tagOfFormat fmt))))
      (entryState s image iw ih (fun o => { o with argW := w, argH := h, argX := x, argY := y })
        (cropFields (tagOfFormat fmt))) :=
  runScript_entryScript hs hf fun k t rest ht => by
    rw [show [wrArgW w, wrArgH h, wrArgX x, wrArgY y].length + k = k + 1 + 1 + 1 + 1 by simp; omega]
    refine Eq.trans (run_writeReg .argW _ ht rfl (by decide)) ?_
    refine Eq.trans (run_writeReg .argH _ rfl rfl (by decide)) ?_
    refine Eq.trans (run_writeReg .argX _ rfl rfl (by decide)) ?_
    exact run_writeReg .argY _ rfl rfl (by decide)

/-- The pipeline: META_IN, ARG_W, ARG_H. -/
theorem runScript_pipelineEntry {s : State} {buffer : List Byte} {w h metaIn tw th : Word} {ch : Byte}
    {out : ColorFormat} {kind : InterpKind} {script : List HostAction}
    (hs : (pipelineEntry buffer w h metaIn ch out tw th kind).script = some script)
    (hf : fits s.params buffer.length = true) :
    runScript script s = exec (decode (assemble (pipeFields ch (tagOfFormat out) kind)))
      (entryState s buffer w h (fun o => { o with metaIn := metaIn, argW := tw, argH := th })
        (pipeFields ch (tagOfFormat out) kind)) :=
  runScript_entryScript hs hf fun k t rest ht => by
    rw [show [wrMetaIn metaIn, wrArgW tw, wrArgH th].length + k = k + 1 + 1 + 1 by simp; omega]
    refine Eq.trans (run_writeReg .metaIn _ ht rfl (by decide)) ?_
    refine Eq.trans (run_writeReg .argW _ rfl rfl (by decide)) ?_
    exact run_writeReg .argH _ rfl rfl (by decide)

/-! ## Several engines -/

theorem Fleet.ofParams_engines (n : Nat) (ps : List Params) :
    (Fleet.ofParams n ps).map (fun s => s.params.engine) = List.range' n ps.length := by
  induction ps generalizing n with
  | nil => rfl
  | cons p ps ih => simp [Fleet.ofParams, ih, List.range'_succ]

/-- Engines numbered by position have numbers of their own. -/
theorem Fleet.ofParams_wf (n : Nat) (ps : List Params) : (Fleet.ofParams n ps).wf := by
  rw [Fleet.wf, Fleet.ofParams_engines]
  exact List.nodup_range'

end Sys2Proof.Machine
end

