-- ==== Sys2Proof/Laws/PerInstr.lean ====
section
/-!
SUPPORT. The family `TableRow`: the word of a command lies in its own row of the opcode table
(spec/30_encoding.md R99), one lemma per constructor.
-/
namespace Sys2Proof.Laws.TableRow

/-- The row of the command takes the word of the command. -/
def Statement (i : Instr) : Prop := rowTakes (rowOf i) (encode i) = true

theorem cvtGray8Gray8 : Statement .cvtGray8Gray8 := rfl

theorem cvtGray8Rgb565 : Statement .cvtGray8Rgb565 := rfl

theorem cvtGray8Rgb888 : Statement .cvtGray8Rgb888 := rfl

theorem cvtGray8Rgba8888 : Statement .cvtGray8Rgba8888 := rfl

theorem cvtGray8Yuv888 : Statement .cvtGray8Yuv888 := rfl

theorem cvtRgb565Gray8 : Statement .cvtRgb565Gray8 := rfl

theorem cvtRgb565Rgb565 : Statement .cvtRgb565Rgb565 := rfl

theorem cvtRgb565Rgb888 : Statement .cvtRgb565Rgb888 := rfl

theorem cvtRgb565Rgba8888 : Statement .cvtRgb565Rgba8888 := rfl

theorem cvtRgb565Yuv888 : Statement .cvtRgb565Yuv888 := rfl

theorem cvtRgb888Gray8 : Statement .cvtRgb888Gray8 := rfl

theorem cvtRgb888Rgb565 : Statement .cvtRgb888Rgb565 := rfl

theorem cvtRgb888Rgb888 : Statement .cvtRgb888Rgb888 := rfl

theorem cvtRgb888Rgba8888 : Statement .cvtRgb888Rgba8888 := rfl

theorem cvtRgb888Yuv888 : Statement .cvtRgb888Yuv888 := rfl

theorem cvtRgba8888Gray8 : Statement .cvtRgba8888Gray8 := rfl

theorem cvtRgba8888Rgb565 : Statement .cvtRgba8888Rgb565 := rfl

theorem cvtRgba8888Rgb888 : Statement .cvtRgba8888Rgb888 := rfl

theorem cvtRgba8888Rgba8888 : Statement .cvtRgba8888Rgba8888 := rfl

theorem cvtRgba8888Yuv888 : Statement .cvtRgba8888Yuv888 := rfl

theorem cvtYuv888Gray8 : Statement .cvtYuv888Gray8 := rfl

theorem cvtYuv888Rgb565 : Statement .cvtYuv888Rgb565 := rfl

theorem cvtYuv888Rgb888 : Statement .cvtYuv888Rgb888 := rfl

theorem cvtYuv888Rgba8888 : Statement .cvtYuv888Rgba8888 := rfl

theorem cvtYuv888Yuv888 : Statement .cvtYuv888Yuv888 := rfl

theorem cvtBgr888Rgb565 : Statement .cvtBgr888Rgb565 := rfl

theorem cvtBgr888Rgb888 : Statement .cvtBgr888Rgb888 := rfl

theorem cvtS1Other (src : Tag) (dst : Tag) : Statement (.cvtS1Other src dst) := by
  revert src dst
  unfold Statement
  decide

theorem cvtTag (src : Tag) (dst : Tag) : Statement (.cvtTag src dst) := by
  revert src dst
  unfold Statement
  decide

theorem dispRgb888Ch1 : Statement .dispRgb888Ch1 := rfl

theorem dispRgba8888Ch1 : Statement .dispRgba8888Ch1 := rfl

theorem dispRgb888Ch2 : Statement .dispRgb888Ch2 := rfl

theorem dispRgba8888Ch2 : Statement .dispRgba8888Ch2 := rfl

theorem dispRgb888Ch3 : Statement .dispRgb888Ch3 := rfl

theorem dispRgba8888Ch3 : Statement .dispRgba8888Ch3 := rfl

theorem dispRgb888Ch4 : Statement .dispRgb888Ch4 := rfl

theorem dispRgba8888Ch4 : Statement .dispRgba8888Ch4 := rfl

theorem dispOtherCh1 (target : Tag) : Statement (.dispOtherCh1 target) := by
  revert target
  unfold Statement
  decide

theorem dispOtherCh2 (target : Tag) : Statement (.dispOtherCh2 target) := by
  revert target
  unfold Statement
  decide

theorem dispOtherCh3 (target : Tag) : Statement (.dispOtherCh3 target) := by
  revert target
  unfold Statement
  decide

theorem dispOtherCh4 (target : Tag) : Statement (.dispOtherCh4 target) := by
  revert target
  unfold Statement
  decide

theorem dispAnyChOther (target : Tag) (ch : Byte) : Statement (.dispAnyChOther target ch) := by
  revert target ch
  unfold Statement
  decide +kernel

theorem resizeNnRgb888 : Statement .resizeNnRgb888 := rfl

theorem resizeBlRgb888 : Statement .resizeBlRgb888 := rfl

theorem resizeNnRgba8888 : Statement .resizeNnRgba8888 := rfl

theorem resizeBlRgba8888 : Statement .resizeBlRgba8888 := rfl

theorem resizeOther (fmt : Tag) (kind : InterpKind) : Statement (.resizeOther fmt kind) := by
  cases kind <;> (revert fmt; unfold Statement; decide)

theorem cropRgb888 : Statement .cropRgb888 := rfl

theorem cropRgba8888 : Statement .cropRgba8888 := rfl

theorem cropOther (fmt : Tag) : Statement (.cropOther fmt) := by
  revert fmt
  unfold Statement
  decide

theorem pipeRgb565Nn (ch : Byte) : Statement (.pipeRgb565Nn ch) := by
  revert ch
  unfold Statement
  decide +kernel

theorem pipeRgb565Bl (ch : Byte) : Statement (.pipeRgb565Bl ch) := by
  revert ch
  unfold Statement
  decide +kernel

theorem pipeRgb888Nn (ch : Byte) : Statement (.pipeRgb888Nn ch) := by
  revert ch
  unfold Statement
  decide +kernel

theorem pipeRgb888Bl (ch : Byte) : Statement (.pipeRgb888Bl ch) := by
  revert ch
  unfold Statement
  decide +kernel

theorem pipeRgba8888Nn (ch : Byte) : Statement (.pipeRgba8888Nn ch) := by
  revert ch
  unfold Statement
  decide +kernel

theorem pipeRgba8888Bl (ch : Byte) : Statement (.pipeRgba8888Bl ch) := by
  revert ch
  unfold Statement
  decide +kernel

theorem pipeYuv888Nn (ch : Byte) : Statement (.pipeYuv888Nn ch) := by
  revert ch
  unfold Statement
  decide +kernel

theorem pipeYuv888Bl (ch : Byte) : Statement (.pipeYuv888Bl ch) := by
  revert ch
  unfold Statement
  decide +kernel

theorem pipeGray8Nn (ch : Byte) : Statement (.pipeGray8Nn ch) := by
  revert ch
  unfold Statement
  decide +kernel

theorem pipeGray8Bl (ch : Byte) : Statement (.pipeGray8Bl ch) := by
  revert ch
  unfold Statement
  decide +kernel

theorem pipeTag (out : Tag) (kind : InterpKind) (ch : Byte) : Statement (.pipeTag out kind ch) := by
  cases kind <;> (revert out ch; unfold Statement; decide +kernel)

theorem illegal (word : Word) : Statement (.illegal word) := by
  simp [Statement, rowTakes, rowOf]

end Sys2Proof.Laws.TableRow
end

