-- ==== Sys2Proof/Machine/Mnemonic.lean ====
section
/-!
DEFINITION. The assembler's spelling of a command (spec/30_encoding.md R92, R95, R100).
-/
namespace Sys2Proof.Machine

/-- The assembler name of a format tag; F5 to F7 name no format (R92). -/
def tagName (t : Tag) : String :=
  match formatOfTag t with
  | some .gray8 => "GRAY8"
  | some .rgb565 => "RGB565"
  | some .rgb888 => "RGB888"
  | some .rgba8888 => "RGBA8888"
  | some .yuv888 => "YUV888"
  | none => "F" ++ toString t.toNat

/-- The assembler name of an interpolation kind (R95). -/
def kindName : InterpKind → String
  | .nearest => "NN"
  | .bilinear => "BL"

/-- The mnemonic of a legal command word's fields; R100 spells S = 1 for two pairs only, and no illegal
word. -/
def spellFields (f : Fields) : Option String :=
  if illegalFields f then none
  else if f.op = opCvt then
    if f.s = 0 then some ("CVT." ++ tagName f.src ++ "." ++ tagName f.dst)
    else if f.src = 2 ∧ (f.dst = 1 ∨ f.dst = 2) then some ("CVT.BGR888." ++ tagName f.dst)
    else none
  else if f.op = opDisp then some ("DISP." ++ tagName f.dst ++ " ch=" ++ toString f.ch.toNat)
  else match kindOfIk f.ik with
    | none => none
    | some k =>
      if f.op = opResize then some ("RESIZE." ++ kindName k ++ "." ++ tagName f.src)
      else if f.op = opCrop then some ("CROP." ++ tagName f.src)
      else some ("PIPE." ++ tagName f.dst ++ "." ++ kindName k ++ " ch=" ++ toString f.ch.toNat)

/-- The mnemonic of a command (R100). -/
def mnemonic (i : Instr) : Option String := spellFields (fieldsOf (encode i))

end Sys2Proof.Machine
end

