-- ==== Sys2Proof/Tests/Slice0.lean ====
section
/-!
SUPPORT. The model's own tests. Expected results are the vectors of spec/95_test_vectors.md (named beside each test) or
words written out from the field picture of spec/30_encoding.md R90. The last part shows, for every statement with
hypotheses, a concrete state and operands that meet them.
-/
open Sys2Proof Sys2Proof.Machine Sys2Proof.Claim

namespace Sys2Proof.Tests

/-- A source image in SRC, everything else as after reset. -/
def source (w h : Word) (bytes : List Byte) : State :=
  { State.reset with
    src := memoryOfBytes 0 bytes
    ops := { Operands.reset with srcW := w, srcH := h, srcLen := BitVec.ofNat 32 bytes.length } }

/-- The four arguments and META_IN. -/
def withArgs (x y w h m : Word) (s : State) : State :=
  { s with ops := { s.ops with argX := x, argY := y, argW := w, argH := h, metaIn := m } }

/-- Another SRC_LEN than the number of bytes. -/
def withLen (n : Word) (s : State) : State := { s with ops := { s.ops with srcLen := n } }

/-- CAP = n. -/
def capped (n : Word) (s : State) : State := { s with params := { s.params with cap := some n } }

/-- Built with the reference instantiations and `Q8_trunc` (T) or `Q8_round` (N). -/
def underT (s : State) : State := { s with params := { s.params with q8 := .trunc, resample := .reference } }
def underN (s : State) : State := { s with params := { s.params with q8 := .round, resample := .reference } }

/-- With a host script. -/
def scripted (a : List HostAction) (s : State) : State := { s with script := a }

/-- STATUS, OUT_W, OUT_H, OUT_CH, OUT_LEN, META_OUT and the output bytes after the word is written to CMD. -/
def run (word : Word) (s : State) : Option (Word × List Nat × Word × Option (List Byte)) :=
  match step (s.withFetchWord 32 word.toNat) with
  | .next t =>
    some (t.res.status, [t.res.outW.toNat, t.res.outH.toNat, t.res.outCh.toNat, t.res.outLen], t.res.metaOut,
      outputBytes t)
  | .fault _ => none
  | .refused _ => none

/-- What a success of the given shape shows. -/
def done (w h ch : Nat) (bytes : List Byte) : Option (Word × List Nat × Word × Option (List Byte)) :=
  some (0x80000000, [w, h, ch, w * h * ch], 0, some bytes)

/-- What a success with metadata shows. -/
def doneMeta (w h ch : Nat) (m : Word) (bytes : List Byte) : Option (Word × List Nat × Word × Option (List Byte)) :=
  some (0x80000000, [w, h, ch, w * h * ch], m, some bytes)

/-- What a diagnosed no-op shows. -/
def noOp (w h ch : Nat) (bytes : List Byte) : Option (Word × List Nat × Word × Option (List Byte)) :=
  some (0x80000100, [w, h, ch, w * h * ch], 0, some bytes)

/-- What an error shows. -/
def failed (status : Word) : Option (Word × List Nat × Word × Option (List Byte)) :=
  some (status, [0, 0, 0, 0], 0, some [])

/-! ## Decoding: a word written out bit by bit for every row, fields as in R90 -/

theorem test_decode_cvt_from_gray8 :
    decode 0b00000000_00000000_00_00_0_000_0_000_0001 = .cvtGray8Gray8 ∧
    decode 0b00000000_00000000_00_00_0_001_0_000_0001 = .cvtGray8Rgb565 ∧
    decode 0b00000000_00000000_00_00_0_010_0_000_0001 = .cvtGray8Rgb888 ∧
    decode 0b00000000_00000000_00_00_0_011_0_000_0001 = .cvtGray8Rgba8888 ∧
    decode 0b00000000_00000000_00_00_0_100_0_000_0001 = .cvtGray8Yuv888 := by
  decide

theorem test_decode_cvt_from_rgb565 :
    decode 0b00000000_00000000_00_00_0_000_0_001_0001 = .cvtRgb565Gray8 ∧
    decode 0b00000000_00000000_00_00_0_001_0_001_0001 = .cvtRgb565Rgb565 ∧
    decode 0b00000000_00000000_00_00_0_010_0_001_0001 = .cvtRgb565Rgb888 ∧
    decode 0b00000000_00000000_00_00_0_011_0_001_0001 = .cvtRgb565Rgba8888 ∧
    decode 0b00000000_00000000_00_00_0_100_0_001_0001 = .cvtRgb565Yuv888 := by
  decide

theorem test_decode_cvt_from_rgb888 :
    decode 0b00000000_00000000_00_00_0_000_0_010_0001 = .cvtRgb888Gray8 ∧
    decode 0b00000000_00000000_00_00_0_001_0_010_0001 = .cvtRgb888Rgb565 ∧
    decode 0b00000000_00000000_00_00_0_010_0_010_0001 = .cvtRgb888Rgb888 ∧
    decode 0b00000000_00000000_00_00_0_011_0_010_0001 = .cvtRgb888Rgba8888 ∧
    decode 0b00000000_00000000_00_00_0_100_0_010_0001 = .cvtRgb888Yuv888 := by
  decide

theorem test_decode_cvt_from_rgba8888 :
    decode 0b00000000_00000000_00_00_0_000_0_011_0001 = .cvtRgba8888Gray8 ∧
    decode 0b00000000_00000000_00_00_0_001_0_011_0001 = .cvtRgba8888Rgb565 ∧
    decode 0b00000000_00000000_00_00_0_010_0_011_0001 = .cvtRgba8888Rgb888 ∧
    decode 0b00000000_00000000_00_00_0_011_0_011_0001 = .cvtRgba8888Rgba8888 ∧
    decode 0b00000000_00000000_00_00_0_100_0_011_0001 = .cvtRgba8888Yuv888 := by
  decide

theorem test_decode_cvt_from_yuv888 :
    decode 0b00000000_00000000_00_00_0_000_0_100_0001 = .cvtYuv888Gray8 ∧
    decode 0b00000000_00000000_00_00_0_001_0_100_0001 = .cvtYuv888Rgb565 ∧
    decode 0b00000000_00000000_00_00_0_010_0_100_0001 = .cvtYuv888Rgb888 ∧
    decode 0b00000000_00000000_00_00_0_011_0_100_0001 = .cvtYuv888Rgba8888 ∧
    decode 0b00000000_00000000_00_00_0_100_0_100_0001 = .cvtYuv888Yuv888 := by
  decide

theorem test_decode_cvt_other :
    decode 0b00000000_00000000_00_00_0_001_1_010_0001 = .cvtBgr888Rgb565 ∧
    decode 0b00000000_00000000_00_00_0_010_1_010_0001 = .cvtBgr888Rgb888 ∧
    decode 0b00000000_00000000_00_00_0_110_1_101_0001 = .cvtS1Other 5 6 ∧
    decode 0b00000000_00000000_00_00_0_011_1_010_0001 = .cvtS1Other 2 3 ∧
    decode 0b00000000_00000000_00_00_0_010_0_111_0001 = .cvtTag 7 2 ∧
    decode 0b00000000_00000000_00_00_0_101_0_010_0001 = .cvtTag 2 5 := by
  decide

theorem test_decode_disp_ch1 :
    decode 0b00000000_00000001_00_00_0_010_0_000_0010 = .dispRgb888Ch1 ∧
    decode 0b00000000_00000001_00_00_0_011_0_000_0010 = .dispRgba8888Ch1 ∧
    decode 0b00000000_00000001_00_00_0_001_0_000_0010 = .dispOtherCh1 1 ∧
    decode 0b00000000_00000001_00_00_0_111_0_000_0010 = .dispOtherCh1 7 := by
  decide

theorem test_decode_disp_ch2 :
    decode 0b00000000_00000010_00_00_0_010_0_000_0010 = .dispRgb888Ch2 ∧
    decode 0b00000000_00000010_00_00_0_011_0_000_0010 = .dispRgba8888Ch2 ∧
    decode 0b00000000_00000010_00_00_0_001_0_000_0010 = .dispOtherCh2 1 ∧
    decode 0b00000000_00000010_00_00_0_111_0_000_0010 = .dispOtherCh2 7 := by
  decide

theorem test_decode_disp_ch3 :
    decode 0b00000000_00000011_00_00_0_010_0_000_0010 = .dispRgb888Ch3 ∧
    decode 0b00000000_00000011_00_00_0_011_0_000_0010 = .dispRgba8888Ch3 ∧
    decode 0b00000000_00000011_00_00_0_001_0_000_0010 = .dispOtherCh3 1 ∧
    decode 0b00000000_00000011_00_00_0_111_0_000_0010 = .dispOtherCh3 7 := by
  decide

theorem test_decode_disp_ch4 :
    decode 0b00000000_00000100_00_00_0_010_0_000_0010 = .dispRgb888Ch4 ∧
    decode 0b00000000_00000100_00_00_0_011_0_000_0010 = .dispRgba8888Ch4 ∧
    decode 0b00000000_00000100_00_00_0_001_0_000_0010 = .dispOtherCh4 1 ∧
    decode 0b00000000_00000100_00_00_0_111_0_000_0010 = .dispOtherCh4 7 := by
  decide

theorem test_decode_disp_other :
    decode 0b00000000_00000000_00_00_0_010_0_000_0010 = .dispAnyChOther 2 0 ∧
    decode 0b00000000_11111111_00_00_0_110_0_000_0010 = .dispAnyChOther 6 255 ∧
    decode 0b00000000_00000101_00_00_0_011_0_000_0010 = .dispAnyChOther 3 5 := by
  decide

theorem test_decode_resize :
    decode 0b00000000_00000000_00_00_0_000_0_010_0011 = .resizeNnRgb888 ∧
    decode 0b00000000_00000000_00_01_0_000_0_010_0011 = .resizeBlRgb888 ∧
    decode 0b00000000_00000000_00_00_0_000_0_011_0011 = .resizeNnRgba8888 ∧
    decode 0b00000000_00000000_00_01_0_000_0_011_0011 = .resizeBlRgba8888 ∧
    decode 0b00000000_00000000_00_01_0_000_0_100_0011 = .resizeOther 4 .bilinear ∧
    decode 0b00000000_00000000_00_00_0_000_0_000_0011 = .resizeOther 0 .nearest := by
  decide

theorem test_decode_crop :
    decode 0b00000000_00000000_00_00_0_000_0_010_0100 = .cropRgb888 ∧
    decode 0b00000000_00000000_00_00_0_000_0_011_0100 = .cropRgba8888 ∧
    decode 0b00000000_00000000_00_00_0_000_0_111_0100 = .cropOther 7 := by
  decide

theorem test_decode_pipe :
    decode 0b00000000_00000001_00_00_0_001_0_000_0101 = .pipeRgb565Nn 1 ∧
    decode 0b00000000_00000100_00_01_0_001_0_000_0101 = .pipeRgb565Bl 4 ∧
    decode 0b00000000_00000001_00_00_0_010_0_000_0101 = .pipeRgb888Nn 1 ∧
    decode 0b00000000_00000100_00_01_0_010_0_000_0101 = .pipeRgb888Bl 4 ∧
    decode 0b00000000_00000001_00_00_0_011_0_000_0101 = .pipeRgba8888Nn 1 ∧
    decode 0b00000000_00000100_00_01_0_011_0_000_0101 = .pipeRgba8888Bl 4 := by
  decide

theorem test_decode_pipe_other :
    decode 0b00000000_00000001_00_00_0_100_0_000_0101 = .pipeYuv888Nn 1 ∧
    decode 0b00000000_00000100_00_01_0_100_0_000_0101 = .pipeYuv888Bl 4 ∧
    decode 0b00000000_00000001_00_00_0_000_0_000_0101 = .pipeGray8Nn 1 ∧
    decode 0b00000000_00000100_00_01_0_000_0_000_0101 = .pipeGray8Bl 4 ∧
    decode 0b00000000_00000011_00_01_0_101_0_000_0101 = .pipeTag 5 .bilinear 3 := by
  decide

/-- V-E1 to V-E8, V-D17, V-G43, V-G44, V-P41. -/
theorem test_decode_illegal :
    decode 0 = .illegal 0 ∧ decode 6 = .illegal 6 ∧ decode 0x00000921 = .illegal 0x00000921 ∧
    decode 0x01000121 = .illegal 0x01000121 ∧ decode 0x00008121 = .illegal 0x00008121 ∧
    decode 0x00001121 = .illegal 0x00001121 ∧ decode 0x00010121 = .illegal 0x00010121 ∧
    decode 0xFFFFFFFF = .illegal 0xFFFFFFFF ∧ decode 0x00020212 = .illegal 0x00020212 ∧
    decode 0x00002023 = .illegal 0x00002023 ∧ decode 0x00000123 = .illegal 0x00000123 ∧
    decode 0x00001024 = .illegal 0x00001024 ∧ decode 0x00030185 = .illegal 0x00030185 := by
  decide

/-- The decoder's second entry: one 32-bit word (R90). -/
theorem test_decodeTableWord :
    decodeTableWord 32 0x00041305 = some (.pipeRgba8888Bl 4) ∧ decodeTableWord 33 0x00041305 = none ∧
    decodeTableWord 32 0x100000001 = none := by
  decide

/-- The spellings of R100. -/
theorem test_mnemonic :
    mnemonic .cvtRgb888Rgb565 = some "CVT.RGB888.RGB565" ∧ mnemonic .cvtBgr888Rgb888 = some "CVT.BGR888.RGB888" ∧
    mnemonic (.pipeRgba8888Bl 4) = some "PIPE.RGBA8888.BL ch=4" ∧ mnemonic (.cvtTag 2 7) = some "CVT.RGB888.F7" ∧
    mnemonic (.illegal 0) = none := by
  decide +kernel

/-! ## WellFormed: an ill-formed term for each check -/

theorem test_illformed_cvtS1Other : ¬ WellFormed (.cvtS1Other 2 1) := by decide
theorem test_illformed_cvtS1Other_swap : ¬ WellFormed (.cvtS1Other 2 2) := by decide
theorem test_illformed_cvtTag : ¬ WellFormed (.cvtTag 0 4) := by decide
theorem test_illformed_dispOtherCh1 : ¬ WellFormed (.dispOtherCh1 2) := by decide
theorem test_illformed_dispOtherCh2 : ¬ WellFormed (.dispOtherCh2 3) := by decide
theorem test_illformed_dispOtherCh3 : ¬ WellFormed (.dispOtherCh3 2) := by decide
theorem test_illformed_dispOtherCh4 : ¬ WellFormed (.dispOtherCh4 3) := by decide
theorem test_illformed_dispAnyChOther : ¬ WellFormed (.dispAnyChOther 0 4) := by decide
theorem test_illformed_resizeOther : ¬ WellFormed (.resizeOther 2 .nearest) := by decide
theorem test_illformed_cropOther : ¬ WellFormed (.cropOther 3) := by decide
theorem test_illformed_pipeTag : ¬ WellFormed (.pipeTag 4 .nearest 1) := by decide
theorem test_illformed_illegal : ¬ WellFormed (.illegal 0x00000121) := by decide

/-! ## One step per row: the vectors of spec/95_test_vectors.md -/

theorem test_V_C13 : run 0x00000001 (source 3 1 [0x09, 0x08, 0x07]) =
    done 3 1 1 [0x09, 0x08, 0x07] := by decide
theorem test_V_C20_101 : run 0x00000101 (source 1 1 [0x07]) =
    failed 0x80000003 := by decide
theorem test_V_C10 : run 0x00000201 (source 2 1 [0x7F, 0xFF]) =
    done 2 1 3 [0x7F, 0x7F, 0x7F, 0xFF, 0xFF, 0xFF] := by decide
theorem test_V_C11 : run 0x00000301 (source 2 1 [0x00, 0x80]) =
    done 2 1 4 [0x00, 0x00, 0x00, 0xFF, 0x80, 0x80, 0x80, 0xFF] := by decide
theorem test_V_C20_401 : run 0x00000401 (source 1 1 [0x07]) =
    failed 0x80000003 := by decide
theorem test_V_C20_011 : run 0x00000011 (source 1 1 [0x07, 0x07]) =
    failed 0x80000003 := by decide
theorem test_V_C14 : run 0x00000111 (source 1 1 [0xCD, 0xAB]) =
    done 1 1 2 [0xCD, 0xAB] := by decide
theorem test_V_C4 : run 0x00000211 (source 2 1 [0xFF, 0xFF, 0x21, 0x08]) =
    done 2 1 3 [0xF8, 0xFC, 0xF8, 0x08, 0x04, 0x08] := by decide
theorem test_V_C12 : run 0x00000311 (source 1 1 [0x08, 0xFC]) =
    done 1 1 4 [0xF8, 0x80, 0x40, 0xFF] := by decide
theorem test_V_C20_411 : run 0x00000411 (source 1 1 [0x07, 0x07]) =
    failed 0x80000003 := by decide
theorem test_V_C20_021 : run 0x00000021 (source 1 1 [0x07, 0x07, 0x07]) =
    failed 0x80000003 := by decide
theorem test_V_C2 : run 0x00000121 (source 2 1 [0x07, 0x03, 0x07, 0x08, 0x04, 0x08]) =
    done 2 1 2 [0x00, 0x00, 0x21, 0x08] := by decide
theorem test_V_C3 : run 0x00000121 (source 1 1 [0x12, 0x34, 0x56]) =
    done 1 1 2 [0xAA, 0x11] := by decide
theorem test_V_C15 : run 0x00000221 (source 1 1 [0x01, 0x02, 0x03]) =
    done 1 1 3 [0x01, 0x02, 0x03] := by decide
theorem test_V_C9 : run 0x00000321 (source 2 1 [0x01, 0x02, 0x03, 0x04, 0x05, 0x06]) =
    done 2 1 4 [0x01, 0x02, 0x03, 0xFF, 0x04, 0x05, 0x06, 0xFF] := by decide
theorem test_V_Y40T : run 0x00000421 (underT (source 3 1 [0xFF, 0x80, 0x40, 0x00, 0x00, 0xFF, 0x01, 0x02, 0x03])) =
    done 3 1 3 [0x9E, 0x4A, 0xC4, 0x1D, 0xFF, 0x6B, 0x01, 0x80, 0x7F] := by decide +kernel
theorem test_V_Y40N : run 0x00000421 (underN (source 3 1 [0xFF, 0x80, 0x40, 0x00, 0x00, 0xFF, 0x01, 0x02, 0x03])) =
    done 3 1 3 [0x9F, 0x4B, 0xC5, 0x1D, 0xFF, 0x6B, 0x02, 0x81, 0x7F] := by decide +kernel
theorem test_V_C20_031 : run 0x00000031 (source 1 1 [0x07, 0x07, 0x07, 0x07]) =
    failed 0x80000003 := by decide
theorem test_V_C20_131 : run 0x00000131 (source 1 1 [0x07, 0x07, 0x07, 0x07]) =
    failed 0x80000003 := by decide
theorem test_V_C8 : run 0x00000231 (source 1 2 [0x01, 0x02, 0x03, 0x04, 0x05, 0x06, 0x07, 0x08]) =
    done 1 2 3 [0x01, 0x02, 0x03, 0x05, 0x06, 0x07] := by decide
theorem test_V_C16 : run 0x00000331 (source 1 1 [0x01, 0x02, 0x03, 0x04]) =
    done 1 1 4 [0x01, 0x02, 0x03, 0x04] := by decide
theorem test_V_C20_431 : run 0x00000431 (source 1 1 [0x07, 0x07, 0x07, 0x07]) =
    failed 0x80000003 := by decide
theorem test_V_C20_041 : run 0x00000041 (source 1 1 [0x07, 0x07, 0x07]) =
    failed 0x80000003 := by decide
theorem test_V_C20_141 : run 0x00000141 (source 1 1 [0x07, 0x07, 0x07]) =
    failed 0x80000003 := by decide
theorem test_V_Y41T : run 0x00000241 (underT (source 3 1 [0x80, 0x80, 0x80, 0x00, 0x00, 0x00, 0x93, 0x6A, 0xBE])) =
    done 3 1 3 [0x80, 0x7F, 0x7F, 0x00, 0x87, 0x00, 0xE9, 0x6E, 0x6C] := by decide +kernel
theorem test_V_Y41N : run 0x00000241 (underN (source 3 1 [0x80, 0x80, 0x80, 0x00, 0x00, 0x00, 0x93, 0x6A, 0xBE])) =
    done 3 1 3 [0x80, 0x80, 0x80, 0x00, 0x87, 0x00, 0xEA, 0x6E, 0x6C] := by decide +kernel
theorem test_V_C20_341 : run 0x00000341 (source 1 1 [0x07, 0x07, 0x07]) =
    failed 0x80000003 := by decide
theorem test_V_C17 : run 0x00000441 (source 1 1 [0x01, 0x02, 0x03]) =
    done 1 1 3 [0x01, 0x02, 0x03] := by decide
theorem test_V_C5 : run 0x000001A1 (source 1 1 [0x40, 0x80, 0xFF]) =
    done 1 1 2 [0x08, 0xFC] := by decide
theorem test_V_C6 : run 0x000001A1 (source 1 1 [0x12, 0x34, 0x56]) =
    done 1 1 2 [0xA2, 0x51] := by decide
theorem test_V_C7 : run 0x000002A1 (source 1 1 [0x40, 0x80, 0xFF]) =
    done 1 1 3 [0xFF, 0x80, 0x40] := by decide
theorem test_V_C20_3A1 : run 0x000003A1 (source 1 1 [0x07, 0x07, 0x07]) =
    failed 0x80000003 := by decide
theorem test_V_C20_191 : run 0x00000191 (source 1 1 [0x07, 0x07]) =
    failed 0x80000003 := by decide
theorem test_V_C20_521 : run 0x00000521 (source 1 1 [0x07, 0x07, 0x07]) =
    failed 0x80000003 := by decide
theorem test_V_C20_271 : run 0x00000271 (source 1 1 [0x07]) =
    failed 0x80000003 := by decide
theorem test_V_C35 : run 0x00000321 (capped 3 (source 1 1 [0x01, 0x02, 0x03])) =
    failed 0x80000006 := by decide
theorem test_V_D1 : run 0x00010202 (source 2 1 [0x10, 0xF0]) =
    done 2 1 3 [0x10, 0x10, 0x10, 0xF0, 0xF0, 0xF0] := by decide
theorem test_V_D2 : run 0x00010302 (source 2 1 [0x10, 0xF0]) =
    done 2 1 4 [0x10, 0x10, 0x10, 0xFF, 0xF0, 0xF0, 0xF0, 0xFF] := by decide
theorem test_V_D3 : run 0x00020202 (source 1 1 [0x08, 0xFC]) =
    done 1 1 3 [0xF8, 0x80, 0x40] := by decide
theorem test_V_D4 : run 0x00020302 (source 1 1 [0x08, 0xFC]) =
    done 1 1 4 [0xF8, 0x80, 0x40, 0xFF] := by decide
theorem test_V_D5 : run 0x00030202 (source 1 1 [0x09, 0x08, 0x07]) =
    done 1 1 3 [0x09, 0x08, 0x07] := by decide
theorem test_V_D6 : run 0x00030302 (source 1 1 [0x09, 0x08, 0x07]) =
    done 1 1 4 [0x09, 0x08, 0x07, 0xFF] := by decide
theorem test_V_D7 : run 0x00040202 (source 1 1 [0x09, 0x08, 0x07, 0x06]) =
    done 1 1 3 [0x09, 0x08, 0x07] := by decide
theorem test_V_D8 : run 0x00040302 (source 1 1 [0x09, 0x08, 0x07, 0x06]) =
    done 1 1 4 [0x09, 0x08, 0x07, 0x06] := by decide
theorem test_V_D13 : run 0x00010102 (source 1 1 [0x09]) =
    failed 0x80000003 := by decide
theorem test_V_D13b : run 0x00020102 (source 1 1 [0x09, 0x08]) =
    failed 0x80000003 := by decide
theorem test_V_D14 : run 0x00030102 (source 1 1 [0x09, 0x08, 0x07]) =
    failed 0x80000003 := by decide
theorem test_V_D14b : run 0x00040102 (source 1 1 [0x09, 0x08, 0x07, 0x06]) =
    failed 0x80000003 := by decide
theorem test_V_D10 : run 0x00000202 (source 1 1 [0x09]) =
    failed 0x80000002 := by decide
theorem test_V_D15 : run 0x00050102 (source 1 1 [0x09]) =
    failed 0x80000002 := by decide
theorem test_V_G20T : run 0x00000023 (underT (withArgs 0 0 0 3 0 (source 3 2 [0x01, 0x02, 0x03, 0x04, 0x05, 0x06, 0x07, 0x08, 0x09, 0x0A, 0x0B, 0x0C, 0x0D, 0x0E, 0x0F, 0x10, 0x11, 0x12]))) =
    done 4 3 3 [0x01, 0x02, 0x03, 0x01, 0x02, 0x03, 0x04, 0x05, 0x06, 0x07, 0x08, 0x09, 0x01, 0x02, 0x03, 0x01, 0x02, 0x03, 0x04, 0x05, 0x06, 0x07, 0x08, 0x09, 0x0A, 0x0B, 0x0C, 0x0A, 0x0B, 0x0C, 0x0D, 0x0E, 0x0F, 0x10, 0x11, 0x12] := by decide +kernel
theorem test_V_G46a : run 0x00000023 (underT (capped 47 (withArgs 0 0 4 4 0 (source 2 2 [0x00, 0x00, 0x00, 0x64, 0x64, 0x64, 0xC8, 0xC8, 0xC8, 0x32, 0x3C, 0x46])))) =
    failed 0x80000006 := by decide +kernel
theorem test_V_G22T : run 0x00001023 (underT (withArgs 0 0 2 0 0 (source 3 2 [0x01, 0x02, 0x03, 0x04, 0x05, 0x06, 0x07, 0x08, 0x09, 0x0A, 0x0B, 0x0C, 0x0D, 0x0E, 0x0F, 0x10, 0x11, 0x12]))) =
    done 2 1 3 [0x06, 0x07, 0x08, 0x0A, 0x0B, 0x0C] := by decide +kernel
theorem test_V_G26N : run 0x00001023 (underN (withArgs 0 0 4 4 0 (source 2 2 [0x00, 0x00, 0x00, 0x64, 0x64, 0x64, 0xC8, 0xC8, 0xC8, 0x32, 0x3C, 0x46]))) =
    done 4 4 3 [0x00, 0x00, 0x00, 0x19, 0x19, 0x19, 0x4B, 0x4B, 0x4B, 0x64, 0x64, 0x64, 0x32, 0x32, 0x32, 0x3B, 0x3C, 0x3D, 0x4E, 0x50, 0x52, 0x58, 0x5A, 0x5D, 0x96, 0x96, 0x96, 0x80, 0x82, 0x84, 0x54, 0x5A, 0x60, 0x3F, 0x46, 0x4E, 0xC8, 0xC8, 0xC8, 0xA3, 0xA5, 0xA8, 0x58, 0x5F, 0x67, 0x32, 0x3C, 0x46] := by decide +kernel
theorem test_V_G29T : run 0x00000033 (underT (withArgs 0 0 4 1 0 (source 2 1 [0x01, 0x02, 0x03, 0x04, 0x05, 0x06, 0x07, 0x08]))) =
    done 4 1 4 [0x01, 0x02, 0x03, 0x04, 0x01, 0x02, 0x03, 0x04, 0x05, 0x06, 0x07, 0x08, 0x05, 0x06, 0x07, 0x08] := by decide +kernel
theorem test_V_G45 : run 0x00000023 (withArgs 0 0 0xFFFFFFFF 0 0 (source 1 2 [0x01, 0x02, 0x03, 0x04, 0x05, 0x06])) =
    failed 0x80000006 := by decide
theorem test_V_G30T : run 0x00001033 (underT (withArgs 0 0 4 1 0 (source 2 1 [0x01, 0x02, 0x03, 0x04, 0x05, 0x06, 0x07, 0x08]))) =
    done 4 1 4 [0x01, 0x02, 0x03, 0x04, 0x02, 0x03, 0x04, 0x05, 0x04, 0x05, 0x06, 0x07, 0x05, 0x06, 0x07, 0x08] := by decide +kernel
theorem test_V_G40_0 : run 0x00000003 (withArgs 0 0 1 1 0 (source 1 1 [0x01])) =
    failed 0x80000003 := by decide
theorem test_V_G40_3 : run 0x00000053 (withArgs 0 0 1 1 0 (source 1 1 [0x01])) =
    failed 0x80000003 := by decide
theorem test_V_G6 : run 0x00000024 (withArgs 1 1 2 2 0 (source 3 3 [0x00, 0x80, 0x40, 0x01, 0x81, 0x41, 0x02, 0x82, 0x42, 0x10, 0x90, 0x50, 0x11, 0x91, 0x51, 0x12, 0x92, 0x52, 0x20, 0xA0, 0x60, 0x21, 0xA1, 0x61, 0x22, 0xA2, 0x62])) =
    done 2 2 3 [0x11, 0x91, 0x51, 0x12, 0x92, 0x52, 0x21, 0xA1, 0x61, 0x22, 0xA2, 0x62] := by decide
theorem test_V_G70 : run 0x00000024 (withArgs 0xFFFFFFFF 0 1 1 0 (source 3 3 [0x00, 0x80, 0x40, 0x01, 0x81, 0x41, 0x02, 0x82, 0x42, 0x10, 0x90, 0x50, 0x11, 0x91, 0x51, 0x12, 0x92, 0x52, 0x20, 0xA0, 0x60, 0x21, 0xA1, 0x61, 0x22, 0xA2, 0x62])) =
    noOp 3 3 3 [0x00, 0x80, 0x40, 0x01, 0x81, 0x41, 0x02, 0x82, 0x42, 0x10, 0x90, 0x50, 0x11, 0x91, 0x51, 0x12, 0x92, 0x52, 0x20, 0xA0, 0x60, 0x21, 0xA1, 0x61, 0x22, 0xA2, 0x62] := by decide
theorem test_V_G72 : run 0x00000034 (withArgs 1 0 1 2 0 (source 2 2 [0x01, 0x02, 0x03, 0x04, 0x05, 0x06, 0x07, 0x08, 0x09, 0x0A, 0x0B, 0x0C, 0x0D, 0x0E, 0x0F, 0x10])) =
    done 1 2 4 [0x05, 0x06, 0x07, 0x08, 0x0D, 0x0E, 0x0F, 0x10] := by decide
theorem test_V_G67 : run 0x00000024 (withArgs 2 0 2 1 0 (source 3 3 [0x00, 0x80, 0x40, 0x01, 0x81, 0x41, 0x02, 0x82, 0x42, 0x10, 0x90, 0x50, 0x11, 0x91, 0x51, 0x12, 0x92, 0x52, 0x20, 0xA0, 0x60, 0x21, 0xA1, 0x61, 0x22, 0xA2, 0x62])) =
    noOp 3 3 3 [0x00, 0x80, 0x40, 0x01, 0x81, 0x41, 0x02, 0x82, 0x42, 0x10, 0x90, 0x50, 0x11, 0x91, 0x51, 0x12, 0x92, 0x52, 0x20, 0xA0, 0x60, 0x21, 0xA1, 0x61, 0x22, 0xA2, 0x62] := by decide
theorem test_V_G73 : run 0x00000014 (withArgs 0 0 1 1 0 (source 1 1 [0x01, 0x02])) =
    failed 0x80000003 := by decide
theorem test_V_P1 : run 0x00040105 (withArgs 0 0 0 0 0xCAFE0001 (source 2 2 [0xFF, 0x80, 0x40, 0x09, 0x00, 0x00, 0xFF, 0x08, 0x08, 0x04, 0x08, 0x07, 0x07, 0x03, 0x07, 0x06])) =
    doneMeta 2 2 2 0xCAFE0001 [0x08, 0xFC, 0x1F, 0x00, 0x21, 0x08, 0x00, 0x00] := by decide
theorem test_V_P20 : run 0x00040105 (underT (withArgs 0 0 1 1 0xCAFE0001 (source 2 2 [0xFF, 0x80, 0x40, 0x09, 0x00, 0x00, 0xFF, 0x08, 0x08, 0x04, 0x08, 0x07, 0x07, 0x03, 0x07, 0x06]))) =
    doneMeta 1 1 2 0xCAFE0001 [0x08, 0xFC] := by decide +kernel
theorem test_V_P21T : run 0x00041105 (underT (withArgs 0 0 1 1 0xCAFE0001 (source 2 2 [0xFF, 0x80, 0x40, 0x09, 0x00, 0x00, 0xFF, 0x08, 0x08, 0x04, 0x08, 0x07, 0x07, 0x03, 0x07, 0x06]))) =
    doneMeta 1 1 2 0xCAFE0001 [0x0A, 0x41] := by decide +kernel
theorem test_V_P5 : run 0x00030105 (withArgs 0 0 0 0 0xCAFE0001 (source 2 1 [0xFF, 0x80, 0x40, 0x00, 0x00, 0xFF])) =
    doneMeta 2 1 2 0xCAFE0001 [0x08, 0xFC, 0x1F, 0x00] := by decide
theorem test_V_P3 : run 0x00040205 (withArgs 0 0 0 0 0xCAFE0001 (source 2 2 [0xFF, 0x80, 0x40, 0x09, 0x00, 0x00, 0xFF, 0x08, 0x08, 0x04, 0x08, 0x07, 0x07, 0x03, 0x07, 0x06])) =
    doneMeta 2 2 3 0xCAFE0001 [0xFF, 0x80, 0x40, 0x00, 0x00, 0xFF, 0x08, 0x04, 0x08, 0x07, 0x03, 0x07] := by decide
theorem test_V_P26 : run 0x00010205 (underT (withArgs 0 0 4 2 0xCAFE0001 (source 2 1 [0x10, 0xF0]))) =
    doneMeta 4 2 3 0xCAFE0001 [0x10, 0x10, 0x10, 0x10, 0x10, 0x10, 0xF0, 0xF0, 0xF0, 0xF0, 0xF0, 0xF0, 0x10, 0x10, 0x10, 0x10, 0x10, 0x10, 0xF0, 0xF0, 0xF0, 0xF0, 0xF0, 0xF0] := by decide +kernel
theorem test_V_P27T : run 0x00011205 (underT (withArgs 0 0 4 1 0xCAFE0001 (source 2 1 [0x10, 0xF0]))) =
    doneMeta 4 1 3 0xCAFE0001 [0x10, 0x10, 0x10, 0x48, 0x48, 0x48, 0xB8, 0xB8, 0xB8, 0xF0, 0xF0, 0xF0] := by decide +kernel
theorem test_V_P2 : run 0x00040305 (withArgs 0 0 0 0 0xCAFE0001 (source 2 2 [0xFF, 0x80, 0x40, 0x09, 0x00, 0x00, 0xFF, 0x08, 0x08, 0x04, 0x08, 0x07, 0x07, 0x03, 0x07, 0x06])) =
    doneMeta 2 2 4 0xCAFE0001 [0xFF, 0x80, 0x40, 0x09, 0x00, 0x00, 0xFF, 0x08, 0x08, 0x04, 0x08, 0x07, 0x07, 0x03, 0x07, 0x06] := by decide
theorem test_V_P23 : run 0x00040305 (underT (withArgs 0 0 4 1 0xCAFE0001 (source 2 2 [0xFF, 0x80, 0x40, 0x09, 0x00, 0x00, 0xFF, 0x08, 0x08, 0x04, 0x08, 0x07, 0x07, 0x03, 0x07, 0x06]))) =
    doneMeta 4 1 4 0xCAFE0001 [0xFF, 0x80, 0x40, 0x09, 0xFF, 0x80, 0x40, 0x09, 0x00, 0x00, 0xFF, 0x08, 0x00, 0x00, 0xFF, 0x08] := by decide +kernel
theorem test_V_P22T : run 0x00041305 (underT (withArgs 0 0 1 1 0xCAFE0001 (source 2 2 [0xFF, 0x80, 0x40, 0x09, 0x00, 0x00, 0xFF, 0x08, 0x08, 0x04, 0x08, 0x07, 0x07, 0x03, 0x07, 0x06]))) =
    doneMeta 1 1 4 0xCAFE0001 [0x43, 0x21, 0x53, 0x07] := by decide +kernel
theorem test_V_P4T : run 0x00040405 (underT (withArgs 0 0 0 0 0xCAFE0001 (source 2 2 [0xFF, 0x80, 0x40, 0x09, 0x00, 0x00, 0xFF, 0x08, 0x08, 0x04, 0x08, 0x07, 0x07, 0x03, 0x07, 0x06]))) =
    doneMeta 2 2 3 0xCAFE0001 [0x9E, 0x4A, 0xC4, 0x1D, 0xFF, 0x6B, 0x05, 0x81, 0x81, 0x04, 0x81, 0x81] := by decide +kernel
theorem test_V_P12N : run 0x00010405 (underN (withArgs 0 0 0 0 0xCAFE0001 (source 2 1 [0x10, 0xF0]))) =
    doneMeta 2 1 3 0xCAFE0001 [0x10, 0x80, 0x80, 0xF0, 0x80, 0x80] := by decide +kernel
theorem test_V_P34 : run 0x00030005 (withArgs 0 0 0 0 0xCAFE0001 (source 1 1 [0x01, 0x02, 0x03])) =
    failed 0x80000003 := by decide
theorem test_V_P35 : run 0x00030005 (withArgs 0 0 0 0 0xCAFE0001 (withLen 2 (source 1 1 []))) =
    failed 0x80000001 := by decide
theorem test_V_P36 : run 0x00030505 (withArgs 0 0 0 0 0xCAFE0001 (source 1 1 [0x01, 0x02, 0x03])) =
    failed 0x80000003 := by decide
theorem test_V_P37 : run 0x00030705 (withArgs 0 0 0 0 0xCAFE0001 (withLen 2 (source 1 1 []))) =
    failed 0x80000001 := by decide
theorem test_V_E_0 : run 0x00000000 (withLen 3 (source 1 1 [])) =
    failed 0x80000005 := by decide
theorem test_V_E_9 : run 0xFFFFFFFF (withLen 3 (source 1 1 [])) =
    failed 0x80000005 := by decide

/-! Rows without a vector of their own: the rule stands beside the test. -/

/-- R244, step 9 of R240: a bilinear pipeline to Gray8 passes stages 1 and 2 and has no path in stage 3. -/
theorem test_pipe_gray_bilinear : run 0x00031005 (source 1 1 [0x01, 0x02, 0x03]) = failed 0x80000003 := by decide

/-- R243 not triggered, R244: a bilinear pipeline to Rgb888 without a target size copies canonical pixels. -/
theorem test_pipe_yuv_bilinear :
    run 0x00031405 (underT (source 1 1 [0xFF, 0x80, 0x40])) = done 1 1 3 [0x9E, 0x4A, 0xC4] := by
  decide +kernel

/-! ## The host's accesses -/

/-- The registers after one step, by word index. -/
def regsAfter (s : State) (indexes : List Nat) : Option (List Nat) :=
  match step s with
  | .next t => some (indexes.map fun i => regValue i t)
  | .fault _ => none
  | .refused _ => none

/-- What the first host action read. -/
def readAfter (s : State) : Option (List Nat) :=
  match step s with
  | .next t => some t.reads
  | .fault _ => none
  | .refused _ => none

/-- P6 row 1: STATUS reads 0 after reset. -/
theorem test_read_status : readAfter (scripted [.readReg 1] State.reset) = some [0] := by decide

/-- R25: SRC_W at 0x08 takes a write, STATUS at 0x04 and OUT_W at 0x28 ignore one, 0x3C is no register. -/
theorem test_write_registers :
    regsAfter (scripted [.writeReg 2 7] State.reset) [1, 2, 10] = some [0, 7, 0] ∧
    regsAfter (scripted [.writeReg 1 7] State.reset) [1, 2, 10] = some [0, 0, 0] ∧
    regsAfter (scripted [.writeReg 10 7] State.reset) [1, 2, 10] = some [0, 0, 0] ∧
    regsAfter (scripted [.writeReg 15 7] State.reset) [1, 2, 15] = some [0, 0, 0] := by
  decide

/-- R66: a SRC write from CAP on is ignored, a read there is 0. -/
theorem test_src_beyond_cap :
    readAfter (scripted [.readSrc 2] (capped 2 (source 1 1 [1, 2, 3]))) = some [0] ∧
    readAfter (scripted [.readSrc 1] (capped 2 (source 1 1 [1, 2, 3]))) = some [2] := by
  decide

/-- D40: the host's read of a byte that was never written. -/
theorem test_read_unwritten_src : readAfter (scripted [.readSrc 3] (source 1 1 [1, 2, 3])) = none := by decide

/-- P1 step 4: after `mv` SRC_W, SRC_H, SRC_LEN are those of the output. -/
theorem test_move :
    regsAfter (scripted [.copyDstToSrc]
      { State.reset with
        dst := memoryOfBytes 0 [0x08, 0xFC]
        res := { Results.reset with status := 0x80000000, outW := 1, outH := 1, outCh := 2, outLen := 2 } })
      [2, 3, 4] = some [1, 1, 2] := by
  decide

/-- R37: the reset action clears a register that the host had written. -/
theorem test_host_reset : regsAfter (scripted [.reset] (source 3 2 [1])) [2, 3, 4] = some [0, 0, 0] := by decide

/-- R301: a command whose checks pass faults on a byte that was never written. -/
theorem test_command_on_unwritten_source : run 0x00000201 (withLen 1 (source 1 1 [])) = none := by decide

/-- The result of an entry point after one command. -/
def resultAfter {α : Type} (e : EntryPoint α) (i : Instr) (s : State) : Option α :=
  match exec i s with
  | .next t => some (e.result t)
  | .fault _ => none
  | .refused _ => none

/-- R101: the expansion of `convert` (1 × 1, Rgb888 to Rgb565). -/
theorem test_convert_expansion :
    (convertEntry [255, 128, 64] 1 1 .rgb888 .rgb565).script =
      some [.writeSrc 0 255, .writeSrc 1 128, .writeSrc 2 64, .writeReg 4 3, .writeReg 2 1, .writeReg 3 1,
        .writeReg 0 0x00000121] := by decide

/-- R101, R124's example: `Ok` of the output bytes. -/
theorem test_convert_result :
    (match resultAfter (convertEntry [255, 128, 64] 1 1 .rgb888 .rgb565) .cvtRgb888Rgb565
        (source 1 1 [255, 128, 64]) with
      | some (.ok bytes) => bytes
      | _ => none) = some [0x08, 0xFC] := by decide

/-- R101, R137: `Err` of the kind. -/
theorem test_convert_error :
    (match resultAfter (convertEntry [5] 1 1 .gray8 .rgb565) .cvtGray8Rgb565 (source 1 1 [5]) with
      | some (.error kind) => kind
      | _ => none) = some .unsupportedConversion := by decide

/-- R101, R221's example: the image comes back whole, with the diagnostic. -/
theorem test_crop_result :
    resultAfter (cropEntry [1, 2, 3, 4, 5, 6, 7, 8, 9, 10, 11, 12] 2 2 .rgb888 0 0 3 1) .cropRgb888
      (withArgs 0 0 3 1 0 (source 2 2 [1, 2, 3, 4, 5, 6, 7, 8, 9, 10, 11, 12])) =
      some { width := 2, height := 2, bytes := some [1, 2, 3, 4, 5, 6, 7, 8, 9, 10, 11, 12], diag := true } := by
  decide

/-- V-P5 as the tuple of R245. -/
theorem test_pipeline_result :
    resultAfter (pipelineEntry [255, 128, 64, 0, 0, 255] 2 1 0xCAFE0001 3 .rgb565 0 0 .nearest) (.pipeRgb565Nn 3)
      (withArgs 0 0 0 0 0xCAFE0001 (source 2 1 [255, 128, 64, 0, 0, 255])) =
      some { width := 2, height := 1, channelCount := 2, metadata := 0xCAFE0001
             buffer := some [0x08, 0xFC, 0x1F, 0x00], err := 0 } := by
  decide

/-- R72: the other engine is as it was. -/
theorem test_fleet :
    (match fleetStep 0 [scripted [.writeReg 2 7] State.reset, source 1 1 [1]] with
      | .next g => some (g.map fun s => s.ops.srcW)
      | .fault _ => none
      | .refused _ => none) = some [7, 1] := by
  decide

/-! ## Witnesses: a concrete state and operands for the hypotheses of each statement -/

/-- `Ready`, checked by computation. -/
theorem ready_of_check {s : State} {b n : Nat}
    (h : (fits s.params (srcLen s) && decide (srcW s ≠ 0) && decide (srcH s ≠ 0) &&
      decide (srcLen s = srcW s * srcH s * b) && (readRange s.src 0 (srcLen s)).isSome && fits s.params n) = true) :
    Ready s b n := by
  simp only [Bool.and_eq_true, decide_eq_true_eq] at h
  obtain ⟨⟨⟨⟨⟨h1, h2⟩, h3⟩, h4⟩, h5⟩, h6⟩ := h
  obtain ⟨img, hi⟩ := Option.isSome_iff_exists.mp h5
  exact ⟨⟨h1, h2, h3, h4⟩, fun a ha => ⟨_, by simpa using (readRange_spec hi).2 a ha⟩, h6⟩

/-- The outcome is a next state that meets a check. -/
def nextWith (o : Host.Outcome State Fault Refusal) (p : State → Bool) : Bool :=
  match o with
  | .next t => p t
  | .fault _ => false
  | .refused _ => false

theorem exists_next {o : Host.Outcome State Fault Refusal} {p : State → Bool} (h : nextWith o p = true) :
    ∃ t, o = .next t ∧ p t = true := by
  cases o with
  | next t => exact ⟨t, rfl, h⟩
  | fault e => cases h
  | refused r => cases h

/-- A state after a successful command: one Gray8 pixel in DST. -/
def afterSuccess : State :=
  { source 1 1 [5] with
    dst := memoryOfBytes 0 [5]
    res := { Results.reset with status := 0x80000000, outW := 1, outH := 1, outCh := 1, outLen := 1 } }

/-- It meets the invariant. -/
theorem afterSuccess_inv (a : List HostAction) : Inv (scripted a afterSuccess) := by
  refine ⟨?_, fun x b _ => rfl, Or.inr (Or.inr ⟨false, ?_⟩), ⟨rfl, rfl, rfl, fun h => absurd h ?_⟩⟩
  · show Memory.wf afterSuccess.src
    decide
  · show afterSuccess.res.status = statusOfSuccess false
    decide
  · show ¬(statusErr afterSuccess.res.status ≠ 0 ∨ statusDone afterSuccess.res.status = false)
    decide

theorem witness_HostResetClearsTheEngine : (scripted [.reset] afterSuccess).script = [.reset] := rfl

theorem witness_DecodeInvertsEncode :
    WellFormed (.cvtS1Other 2 3) ∧ WellFormed (.cvtTag 7 0) ∧ WellFormed (.dispAnyChOther 7 255) ∧
    WellFormed (.resizeOther 7 .bilinear) ∧ WellFormed (.cropOther 0) ∧ WellFormed (.pipeTag 5 .nearest 0) ∧
    WellFormed (.illegal 0x00000921) ∧ WellFormed .cvtGray8Gray8 := by
  decide

theorem witness_StepRunsTheDecodedCommand :
    (scripted [.writeReg 0 0x00000121, .readReg 1] afterSuccess).script =
      .writeReg 0 0x00000121 :: [.readReg 1] ∧ State.reset.script = [] :=
  ⟨rfl, rfl⟩

theorem witness_HostWritesOperandRegistersOnly :
    ((scripted [.writeReg 9 7] afterSuccess).script = .writeReg 9 7 :: [] ∧ 9 ≠ 0 ∧
      regAt 9 = some .metaIn ∧ regAt 10 = some .outW) ∧
    ((scripted [.writeReg 1 7] afterSuccess).script = .writeReg 1 7 :: [] ∧ 1 ≠ 0 ∧ regAt 2 = some .srcW) ∧
    ((scripted [.writeReg 15 7] afterSuccess).script = .writeReg 15 7 :: [] ∧ 15 ≠ 0 ∧ regAt 15 = none) := by
  decide

theorem witness_HostReadsRegistersAtTheirOffsets :
    ((scripted [.readReg 14] afterSuccess).script = .readReg 14 :: [] ∧ regAt 14 = some .metaOut) ∧
    ((scripted [.readReg 15] afterSuccess).script = .readReg 15 :: [] ∧ 15 ≤ 15) := by
  decide

theorem witness_HostReachesSrcByteByByte :
    (capped 2 (scripted [.writeSrc 1 9] afterSuccess)).script = .writeSrc 1 9 :: [] ∧
    (capped 2 (scripted [.readSrc 0] afterSuccess)).script = .readSrc 0 :: [] ∧
    inCap (capped 2 afterSuccess).params 0 = true ∧ readByte (capped 2 afterSuccess).src 0 = some 5 ∧
    inCap (capped 2 afterSuccess).params 2 = false ∧
    inCap (capped 2 afterSuccess).params 1 = true ∧ readByte (capped 2 afterSuccess).src 1 = none := by
  decide

theorem witness_HostOnlyReadsDst :
    (capped 2 (scripted [.writeDst 0 9] afterSuccess)).script = .writeDst 0 9 :: [] ∧
    (capped 2 (scripted [.readDst 0] afterSuccess)).script = .readDst 0 :: [] ∧
    inCap (capped 2 afterSuccess).params 0 = true ∧ readByte (capped 2 afterSuccess).dst 0 = some 5 ∧
    inCap (capped 2 afterSuccess).params 1 = true ∧ readByte (capped 2 afterSuccess).dst 1 = none ∧
    inCap (capped 2 afterSuccess).params 2 = false := by
  decide

theorem witness_MoveMakesTheOutputTheNextSource :
    Inv (scripted [.copyDstToSrc] afterSuccess) ∧
      (scripted [.copyDstToSrc] afterSuccess).script = .copyDstToSrc :: [] ∧
      (scripted [.copyDstToSrc] afterSuccess).res.outLen < 2 ^ 32 :=
  ⟨afterSuccess_inv _, rfl, by decide⟩

/-- A Gray8 output of `n` bytes, of width `w` and height `h`. -/
def windowOf (n : Nat) (w h : Word) : State :=
  { State.reset with
    dst := (List.range n).map fun a => (a, 0)
    res := { Results.reset with status := 0x80000000, outW := w, outH := h, outCh := 1, outLen := n }
    script := [.copyDstToSrc] }

theorem windowOf_inv {n : Nat} {w h : Word} (hn : n = w.toNat * h.toNat) : Inv (windowOf n w h) := by
  refine ⟨List.Pairwise.nil, fun x b h => (by cases h), Or.inr (Or.inr ⟨false, rfl⟩), ⟨?_, ?_, rfl, ?_⟩⟩
  · simp [windowOf, Function.comp_def]
  · simpa [windowOf] using hn
  · intro h
    exact absurd h (by show ¬(statusErr 0x80000000 ≠ 0 ∨ statusDone 0x80000000 = false); decide)

/-- 65536 by 65536 pixels: 2^32 bytes. -/
theorem witness_MoveMakesTheOutputTheNextSource_refused :
    ∃ s : State, Inv s ∧ s.script = .copyDstToSrc :: [] ∧ 2 ^ 32 ≤ s.res.outLen :=
  ⟨windowOf 4294967296 65536 65536, windowOf_inv (by decide), rfl, by show 2 ^ 32 ≤ 4294967296; decide⟩

theorem witness_SameFormatConversionsCopy :
    (Instr.cvtYuv888Yuv888, 3) ∈ [(Instr.cvtGray8Gray8, 1), (.cvtRgb565Rgb565, 2), (.cvtRgb888Rgb888, 3),
      (.cvtRgba8888Rgba8888, 4), (.cvtYuv888Yuv888, 3)] ∧ Ready (source 1 1 [1, 2, 3]) 3 (1 * 1 * 3) :=
  ⟨by decide, ready_of_check (by decide)⟩

theorem witness_PackTruncatesToRgb565LowByteFirst : Ready (source 1 1 [255, 128, 64]) 3 (1 * 1 * 2) :=
  ready_of_check (by decide)

theorem witness_PackFromReversedBytes : Ready (source 2 1 [64, 128, 255, 1, 2, 3]) 3 (2 * 1 * 2) :=
  ready_of_check (by decide)

theorem witness_UnpackZeroExtendsAndShifts : Ready (source 1 1 [0x08, 0xFC]) 2 (1 * 1 * 3) :=
  ready_of_check (by decide)

theorem witness_UnpackThenOpaqueAlpha : Ready (source 1 1 [0x08, 0xFC]) 2 (1 * 1 * 4) := ready_of_check (by decide)

theorem witness_SwapExchangesFirstAndThirdByte : Ready (source 1 1 [64, 128, 255]) 3 (1 * 1 * 3) :=
  ready_of_check (by decide)

theorem witness_AlphaIsDroppedOrOpaque :
    Ready (source 1 2 [1, 2, 3, 4, 5, 6, 7, 8]) 4 (1 * 2 * 3) ∧ Ready (source 1 1 [1, 2, 3]) 3 (1 * 1 * 4) :=
  ⟨ready_of_check (by decide), ready_of_check (by decide)⟩

theorem witness_GrayReplicates :
    Ready (source 2 1 [127, 255]) 1 (2 * 1 * 3) ∧ Ready (source 2 1 [127, 255]) 1 (2 * 1 * 4) :=
  ⟨ready_of_check (by decide), ready_of_check (by decide)⟩

theorem witness_RgbToYuvQuantisesTheExactValues : Ready (source 1 1 [255, 0, 0]) 3 (1 * 1 * 3) :=
  ready_of_check (by decide)

theorem witness_YuvToRgbQuantisesTheExactValues : Ready (source 1 1 [255, 255, 255]) 3 (1 * 1 * 3) :=
  ready_of_check (by decide)

theorem witness_UnsupportedPairsEndWithError3 :
    Instr.cvtRgb888Gray8 ∈ [Instr.cvtGray8Rgb565, .cvtGray8Yuv888, .cvtRgb565Gray8, .cvtRgb565Yuv888,
      .cvtRgb888Gray8, .cvtRgba8888Gray8, .cvtRgba8888Rgb565, .cvtRgba8888Yuv888, .cvtYuv888Gray8,
      .cvtYuv888Rgb565, .cvtYuv888Rgba8888] ∧
    WellFormed (.cvtS1Other 2 3) ∧ WellFormed (.cvtTag 0 5) := by
  decide

/-- V-C34, V-C31, V-C30 and V-C35 meet the clauses one by one; the dispatch rows are in the list too. -/
theorem witness_ConversionChecksInOrder :
    (Instr.cvtRgb888Rgba8888, 3, 4) ∈
      convertingRows ++ dispatchRows.map (fun x => (x.1, x.2.1, if x.2.2.1 then 4 else 3)) ∧
    (Instr.dispRgba8888Ch1, 1, 4) ∈
      convertingRows ++ dispatchRows.map (fun x => (x.1, x.2.1, if x.2.2.1 then 4 else 3)) ∧
    fits (capped 2 (source 1 1 [1, 2, 3])).params 3 = false ∧
    (fits (source 1 0 []).params 0 = true ∧ srcH (source 1 0 []) = 0) ∧
    (fits (source 1 1 [1, 2]).params 2 = true ∧ srcLen (source 1 1 [1, 2]) ≠ 1 * 1 * 3) ∧
    (Shaped (capped 3 (source 1 1 [1, 2, 3])) 3 ∧
      fits (capped 3 (source 1 1 [1, 2, 3])).params (1 * 1 * 4) = false) :=
  ⟨by decide, by decide, by decide, by decide, by decide, ⟨by decide, by decide, by decide, by decide⟩, by decide⟩

theorem witness_PackUnpackLaws : unpack565 (pack565 7 3 15) = (0, 0, 8) := by decide

theorem witness_ConversionLaws :
    ([64, 128, 255] : List Byte).length = 1 * 3 ∧ ([64, 128, 255, 9] : List Byte).length = 1 * 4 ∧ 3 < 1 * 4 ∧
    ([7] : List Byte).length = 1 := by
  decide

theorem witness_YuvIntegerForm : 0 < 1 := by decide

theorem witness_DispatchesProduceTheCanonicalPixels :
    (Instr.dispRgba8888Ch2, 2, true, Instr.cvtRgb565Rgba8888) ∈ dispatchRows ∧
      Ready (source 1 1 [0x08, 0xFC]) 2 (1 * 1 * 4) :=
  ⟨by decide, ready_of_check (by decide)⟩

theorem witness_DispatchEqualsConversion :
    (Instr.dispRgb888Ch4, 4, false, Instr.cvtRgba8888Rgb888) ∈ dispatchRows := by
  decide

theorem witness_DispatchFailuresEndWithTheirError :
    WellFormed (.dispAnyChOther 2 0) ∧ WellFormed (.dispAnyChOther 7 5) ∧
    (1 : Tag) ≠ 2 ∧ (1 : Tag) ≠ 3 ∧ (4 : Tag) ≠ 2 ∧ (4 : Tag) ≠ 3 := by
  decide

/-- A 1 by 2 Rgb888 image. -/
def column : State := source 1 2 [1, 2, 3, 4, 5, 6]

theorem witness_ResizeZeroZeroIsIdentity :
    (Instr.resizeBlRgb888, InterpKind.bilinear, 3) ∈ resizeRows ∧ Ready column 3 6 ∧ argW column = 0 ∧
      argH column = 0 :=
  ⟨by decide, ready_of_check (by decide), rfl, rfl⟩

theorem witness_ResizeDeliversTheTargetDimensions :
    (Instr.resizeNnRgb888, InterpKind.nearest, 3) ∈ resizeRows ∧
    (argW (withArgs 0 0 2 0 0 column) ≠ 0 ∧ targetDims 1 2 2 0 = (2, 4) ∧
      Ready (withArgs 0 0 2 0 0 column) 3 (2 * 4 * 3)) ∧
    (argH (withArgs 0 0 0 2 0 column) ≠ 0 ∧ targetDims 1 2 0 2 = (1, 2) ∧
      Ready (withArgs 0 0 0 2 0 column) 3 (1 * 2 * 3)) ∧
    (argW (withArgs 0 0 1 1 0 column) ≠ 0 ∧ targetDims 1 2 1 1 = (1, 1) ∧
      Ready (withArgs 0 0 1 1 0 column) 3 (1 * 1 * 3)) :=
  ⟨by decide, ⟨by decide, by decide, ready_of_check (by decide)⟩, ⟨by decide, by decide, ready_of_check (by decide)⟩,
    by decide, by decide, ready_of_check (by decide)⟩

theorem witness_ResizeToNothingIsDiagnosedNoOp :
    (Instr.resizeNnRgb888, InterpKind.nearest, 3) ∈ resizeRows ∧ argH (withArgs 0 0 0 1 0 column) ≠ 0 ∧
    targetDims 1 2 0 1 = (0, 1) ∧ Ready (withArgs 0 0 0 1 0 column) 3 6 :=
  ⟨by decide, by decide, by decide, ready_of_check (by decide)⟩

theorem witness_ResizeBeyondTheLimitsEndsWithError6 :
    (Instr.resizeNnRgb888, InterpKind.nearest, 3) ∈ resizeRows ∧
    (Shaped (withArgs 0 0 0xFFFFFFFF 0 0 column) 3 ∧ 2 ^ 32 ≤ (targetDims 1 2 0xFFFFFFFF 0).2) ∧
    (Shaped (withArgs 0 0 1 3 0 (capped 6 column)) 3 ∧ targetDims 1 2 1 3 = (1, 3) ∧
      fits (capped 6 column).params (1 * 3 * 3) = false) :=
  ⟨by decide, ⟨⟨by decide, by decide, by decide, by decide⟩, by decide⟩,
    ⟨by decide, by decide, by decide, by decide⟩, by decide, by decide⟩

theorem witness_ReferenceNearestCopiesOnePixel :
    (Instr.resizeNnRgba8888, 4) ∈ [(Instr.resizeNnRgb888, 3), (.resizeNnRgba8888, 4)] ∧
    (underT (withArgs 0 0 2 1 0 (source 1 1 [1, 2, 3, 4]))).params.resample = .reference ∧
    targetDims 1 1 2 1 = (2, 1) ∧ Ready (underT (withArgs 0 0 2 1 0 (source 1 1 [1, 2, 3, 4]))) 4 (2 * 1 * 4) :=
  ⟨by decide, by decide, by decide, ready_of_check (by decide)⟩

theorem witness_ReferenceBilinearQuantisesTheMean :
    (Instr.resizeBlRgb888, 3) ∈ [(Instr.resizeBlRgb888, 3), (.resizeBlRgba8888, 4)] ∧
    (underN (withArgs 0 0 1 1 0 column)).params.resample = .reference ∧
    targetDims 1 2 1 1 = (1, 1) ∧ Ready (underN (withArgs 0 0 1 1 0 column)) 3 (1 * 1 * 3) :=
  ⟨by decide, by decide, by decide, ready_of_check (by decide)⟩

theorem witness_GeometryPrologueErrors :
    (Instr.cropRgba8888, 4) ∈ resizeRows.map (fun x => (x.1, x.2.2)) ++ cropRows ∧
    fits (capped 5 column).params (srcLen column) = false ∧
    (fits column.params (srcLen column) = true ∧ srcLen column ≠ srcW column * srcH column * 4) ∧
    (0 : Tag) ≠ 2 ∧ (0 : Tag) ≠ 3 ∧ (7 : Tag) ≠ 2 ∧ (7 : Tag) ≠ 3 := by
  decide

theorem witness_CropExtractsTheSubRectangle :
    (Instr.cropRgb888, 3) ∈ cropRows ∧ Ready (withArgs 0 1 1 1 0 column) 3 6 ∧
    argW (withArgs 0 1 1 1 0 column) ≠ 0 ∧ argH (withArgs 0 1 1 1 0 column) ≠ 0 ∧ 0 + 1 ≤ srcW column ∧
    1 + 1 ≤ srcH column :=
  ⟨by decide, ready_of_check (by decide), by decide, by decide, by decide, by decide⟩

theorem witness_CropOutOfBoundsIsDiagnosedNoOp :
    (Instr.cropRgb888, 3) ∈ cropRows ∧ Ready (withArgs 0 2 1 1 0 column) 3 6 ∧
    srcH column < argY (withArgs 0 2 1 1 0 column) + argH (withArgs 0 2 1 1 0 column) :=
  ⟨by decide, ready_of_check (by decide), by decide⟩

theorem witness_GeometryKeepsFormatAndBounds :
    (∃ t, exec .cropRgb888 (withArgs 0 1 1 1 0 column) = .next t ∧ (statusErr t.res.status == 0) = true) ∧
    (encode .cropRgb888).toNat % 16 = 4 ∧
    (∃ t, exec .resizeNnRgb888 column = .next t ∧ (statusErr t.res.status == 0) = true) ∧
    (encode .resizeNnRgb888).toNat % 16 = 3 :=
  ⟨exists_next (by decide), by decide, exists_next (by decide), by decide⟩

theorem witness_CropCommutesWithConversion :
    (∃ path : Machine.Path, cvtPath .unspecified (some .rgb888) false (some .rgba8888) = some path ∧
      ([1, 2, 3, 4, 5, 6] : List Byte).length = 2 * 1 * path.srcBpp) ∧
    isCanonical (some .rgb888) = true ∧ isCanonical (some .rgba8888) = true ∧ 1 + 1 ≤ 2 ∧ 0 + 1 ≤ 1 :=
  ⟨⟨_, rfl, rfl⟩, rfl, rfl, by decide, by decide⟩

theorem witness_PipeWithoutResizeRepacksCanonicalPixels :
    1 ≤ (4 : Byte).toNat ∧ (4 : Byte).toNat ≤ 4 ∧
    (Instr.pipeRgb565Nn 4, InterpKind.nearest, ColorFormat.rgb565, 2) ∈ pipeRowsOf 4 ∧
    ¬((4 : Byte) = 1 ∧ ColorFormat.rgb565 = .rgb565) ∧ argH (withArgs 0 0 1 0 9 (source 1 1 [1, 2, 3, 4])) = 0 ∧
    Ready (withArgs 0 0 1 0 9 (source 1 1 [1, 2, 3, 4])) 4 (1 * 1 * 3) :=
  ⟨by decide, by decide, by decide, by decide, by decide, ready_of_check (by decide)⟩

theorem witness_PipeWithResizeRepacksTheResampledImage :
    1 ≤ (1 : Byte).toNat ∧ (1 : Byte).toNat ≤ 4 ∧
    (Instr.pipeYuv888Bl 1, InterpKind.bilinear, ColorFormat.yuv888, 3) ∈ pipeRowsOf 1 ∧
    ¬((1 : Byte) = 1 ∧ ColorFormat.yuv888 = .rgb565) ∧
    argW (withArgs 0 0 3 1 9 (source 1 1 [7])) ≠ 0 ∧ argH (withArgs 0 0 3 1 9 (source 1 1 [7])) ≠ 0 ∧
    Ready (capped 9 (withArgs 0 0 3 1 9 (source 1 1 [7]))) 1 (1 * 1 * 3) ∧
    fits (capped 9 (source 1 1 [7])).params (3 * 1 * 3) = true :=
  ⟨by decide, by decide, by decide, by decide, by decide, by decide, ready_of_check (by decide), by decide⟩

/-- V-P30, V-P33, V-P40, V-P51 and V-P52 meet the clauses one by one. -/
theorem witness_PipeFailuresInStageOrder :
    (Instr.pipeRgb565Nn 1, InterpKind.nearest, ColorFormat.rgb565, 2) ∈ pipeRowsOf 1 ∧
    (Instr.pipeRgb565Nn 2, InterpKind.nearest, ColorFormat.rgb565, 2) ∈ pipeRowsOf 2 ∧
    fits (capped 3 (source 2 1 [1, 2, 3, 4])).params 4 = false ∧
    fits (source 1 1 [1]).params 1 = true ∧ 4 < (5 : Byte).toNat ∧
    ¬((2 : Byte) = 1 ∧ ColorFormat.rgb565 = .rgb565) ∧
    (srcW (source 0 1 []) = 0 ∧ fits (source 0 1 []).params 0 = true) ∧
    (Shaped (capped 5 (source 2 1 [1, 2, 3, 4])) 2 ∧ fits (capped 5 (source 2 1 [1, 2, 3, 4])).params (2 * 1 * 3) = false) ∧
    (Shaped (capped 8 (withArgs 0 0 3 1 0 (source 2 1 [1, 2, 3, 4]))) 2 ∧
      fits (capped 8 (source 2 1 [1, 2, 3, 4])).params (3 * 1 * 3) = false) :=
  ⟨by decide, by decide, by decide, by decide, by decide, by decide, by decide,
    ⟨⟨by decide, by decide, by decide, by decide⟩, by decide⟩,
    ⟨by decide, by decide, by decide, by decide⟩, by decide⟩

theorem witness_PipeWithoutRepackPathFailsAtStage3 :
    5 ≤ (5 : Tag).toNat ∧ Instr.pipeTag 5 .nearest 3 ∈ pipeDeadRows 3 5 .nearest ∧
    Instr.pipeGray8Bl 3 ∈ pipeDeadRows 3 5 .nearest := by
  decide

/-- V-P5. -/
theorem witness_PipelineEqualsDispatchMoveConvert :
    (source 2 1 [255, 128, 64, 0, 0, 255]).script = [] ∧ argW (source 2 1 [255, 128, 64, 0, 0, 255]) = 0 ∧
    srcW (source 2 1 [255, 128, 64, 0, 0, 255]) * srcH (source 2 1 [255, 128, 64, 0, 0, 255]) *
      (if (2 : Tag) = 3 then 4 else 3) < 2 ^ 32 ∧
    ∃ t, exec (.pipeRgb565Nn 3) (source 2 1 [255, 128, 64, 0, 0, 255]) = .next t ∧
      (statusErr t.res.status == 0) = true :=
  ⟨rfl, by decide, by decide, exists_next (by decide)⟩

/-- V-P27. -/
theorem witness_PipelineEqualsDispatchResizeConvert :
    (underT (withArgs 0 0 4 1 0 (source 2 1 [16, 240]))).script = [] ∧
    argW (underT (withArgs 0 0 4 1 0 (source 2 1 [16, 240]))) ≠ 0 ∧
    argH (underT (withArgs 0 0 4 1 0 (source 2 1 [16, 240]))) ≠ 0 ∧
    2 * 1 * (if (2 : Tag) = 3 then 4 else 3) < 2 ^ 32 ∧ 4 * 1 * (if (2 : Tag) = 3 then 4 else 3) < 2 ^ 32 ∧
    ∃ t, exec (.pipeRgb888Bl 1) (underT (withArgs 0 0 4 1 0 (source 2 1 [16, 240]))) = .next t ∧
      (statusErr t.res.status == 0) = true :=
  ⟨rfl, by decide, by decide, by decide, by decide, exists_next (by decide +kernel)⟩

theorem witness_CommandsWriteOnlyResultsAndDst :
    ∃ t, exec .cvtGray8Rgb888 (source 1 1 [5]) = .next t ∧ (t.res.outLen == 3) = true :=
  exists_next (by decide)

theorem witness_CommandsCompleteOnWrittenSource :
    SourceWritten (source 1 1 [5]) ∧
      exec .cvtGray8Rgb888 (withLen 1 (source 1 1 [])) = .fault .unwrittenSrcByte :=
  ⟨(ready_of_check (b := 1) (n := 1) (by decide) : Ready (source 1 1 [5]) 1 1).written, rfl⟩

theorem witness_FailedCommandsReadNoSource :
    ∃ t, exec .cvtGray8Rgb565 (source 1 1 [5]) = .next t ∧ (statusErr t.res.status == 3) = true :=
  exists_next (by decide)

/-- Two states that differ in META_IN and DST agree on what CROP reads. -/
theorem witness_ResultDependsOnTheInputsAlone :
    AgreeOn .cropRgb888 (withArgs 0 1 1 1 0 column) { withArgs 0 1 1 1 7 column with dst := memoryOfBytes 0 [9] } ∧
    ∃ t, exec .cropRgb888 (withArgs 0 1 1 1 0 column) = .next t ∧ (t.res.outLen == 3) = true :=
  ⟨⟨rfl, fun _ => ⟨rfl, rfl, rfl, fun _ _ => rfl⟩, fun _ => ⟨rfl, rfl⟩, fun _ => ⟨rfl, rfl⟩,
    fun h => absurd h.2 (by decide)⟩, exists_next (by decide)⟩

theorem witness_StatusAfterEveryCommandIsLegal :
    ∃ t, exec (.illegal 0) State.reset = .next t ∧ (statusErr t.res.status == 5) = true :=
  exists_next (by decide)

theorem witness_CommitLeavesAWindowOfTheOutputShape :
    (∃ t, exec (.illegal 0) afterSuccess = .next t ∧ (statusErr t.res.status != 0) = true) ∧
    (∃ t, exec .cvtGray8Rgba8888 afterSuccess = .next t ∧ (t.res.outLen == 4) = true) :=
  ⟨exists_next (by decide), exists_next (by decide)⟩

theorem witness_DiagnosticMeansTheSourceCameBack :
    ∃ t, exec .cropRgb888 (withArgs 0 2 1 1 0 column) = .next t ∧ statusDiag t.res.status = true :=
  exists_next (by decide)

theorem witness_EveryStepKeepsTheInvariant :
    Inv (scripted [goWord 0x00000201] afterSuccess) ∧
    ∃ t, step (scripted [goWord 0x00000201] afterSuccess) = .next t ∧ (t.res.outLen == 3) = true :=
  ⟨afterSuccess_inv _, exists_next (by decide)⟩

theorem witness_EnginesAreIndependent :
    1 ≠ 0 ∧ (∃ g, fleetStep 0 [scripted [.writeReg 2 7] State.reset, scripted [.reset] afterSuccess] = .next g) ∧
    ∃ h, fleetStep 1 [{ State.reset with ops := { Operands.reset with srcW := 7 } }, scripted [.reset] afterSuccess] =
      .next h :=
  ⟨by decide, ⟨_, rfl⟩, ⟨_, rfl⟩⟩

end Sys2Proof.Tests
end

section
/-!
The proofs of the statements on the state (spec/10_state.md): the machine after reset (R36), and what a
command's result depends on (R26).
-/
namespace Sys2Proof.Proofs
open Sys2Proof.Machine Sys2Proof.Claim

/-- Settles O1: State.reset names each register's value, and its two memories are empty. -/
theorem resetLeavesRegistersZeroAndMemoriesUnspecified :
    Obligations.ResetLeavesRegistersZeroAndMemoriesUnspecified :=
  ⟨rfl, rfl, rfl, fun _ => rfl, fun _ => rfl, rfl⟩

/-! ## Which operand registers each family's plan depends on (10_state.md R26) -/

section PlanCongruence
variable {p : Params} {o o' : Operands}
  (hw : o.srcW = o'.srcW) (hh : o.srcH = o'.srcH) (hl : o.srcLen = o'.srcLen)
include hw hh hl

theorem cvtPlan_congr (src : Option ColorFormat) (b : Bool) (dst : Option ColorFormat) :
    cvtPlan p o src b dst = cvtPlan p o' src b dst := by
  simp only [cvtPlan, hw, hh, hl]

theorem dispPlan_congr (ch : Byte) (dst : Option ColorFormat) : dispPlan p o ch dst = dispPlan p o' ch dst := by
  simp only [dispPlan, hw, hh, hl, cvtPlan_congr hw hh hl]

theorem prologue_congr (fmt : Option ColorFormat) : prologue p o fmt = prologue p o' fmt := by
  simp only [prologue, hw, hh, hl]

variable (haw : o.argW = o'.argW) (hah : o.argH = o'.argH)
include haw hah

theorem resizePlan_congr (fmt : Option ColorFormat) (kind : InterpKind) :
    resizePlan p o fmt kind = resizePlan p o' fmt kind := by
  simp only [resizePlan, haw, hah, prologue_congr hw hh hl]

theorem cropPlan_congr (hax : o.argX = o'.argX) (hay : o.argY = o'.argY) (fmt : Option ColorFormat) :
    cropPlan p o fmt = cropPlan p o' fmt := by
  simp only [cropPlan, hax, hay, haw, hah, prologue_congr hw hh hl]

theorem pipePlan_congr (hm : o.metaIn = o'.metaIn) (ch : Byte) (out : Option ColorFormat) (kind : InterpKind) :
    pipePlan p o ch out kind = pipePlan p o' ch out kind := by
  simp only [pipePlan, hw, hh, hl, haw, hah, hm]

end PlanCongruence

/-- The plan of a command is the same in two states that agree on what the command reads: the operation of its
word (30_encoding.md R91) says which registers its family's plan depends on. -/
theorem commandPlan_eq_of_agreeOn {i : Instr} {s s' : State} (h : AgreeOn i s s') :
    commandPlan i s.params s.ops = commandPlan i s'.params s'.ops := by
  obtain ⟨hp, hsrc, hsize, hplace, hmeta⟩ := h
  rw [← hp]
  cases i with
  | illegal _ => rfl
  | cvtGray8Gray8 | cvtGray8Rgb565 | cvtGray8Rgb888 | cvtGray8Rgba8888 | cvtGray8Yuv888
  | cvtRgb565Gray8 | cvtRgb565Rgb565 | cvtRgb565Rgb888 | cvtRgb565Rgba8888 | cvtRgb565Yuv888
  | cvtRgb888Gray8 | cvtRgb888Rgb565 | cvtRgb888Rgb888 | cvtRgb888Rgba8888 | cvtRgb888Yuv888
  | cvtRgba8888Gray8 | cvtRgba8888Rgb565 | cvtRgba8888Rgb888 | cvtRgba8888Rgba8888 | cvtRgba8888Yuv888
  | cvtYuv888Gray8 | cvtYuv888Rgb565 | cvtYuv888Rgb888 | cvtYuv888Rgba8888 | cvtYuv888Yuv888
  | cvtBgr888Rgb565 | cvtBgr888Rgb888 | cvtS1Other | cvtTag =>
    obtain ⟨hw, hh, hl, -⟩ := hsrc nofun
    simp only [commandPlan, cvtPlan_congr hw hh hl]
  | dispRgb888Ch1 | dispRgba8888Ch1 | dispRgb888Ch2 | dispRgba8888Ch2
  | dispRgb888Ch3 | dispRgba8888Ch3 | dispRgb888Ch4 | dispRgba8888Ch4
  | dispOtherCh1 | dispOtherCh2 | dispOtherCh3 | dispOtherCh4 | dispAnyChOther =>
    obtain ⟨hw, hh, hl, -⟩ := hsrc nofun
    simp only [commandPlan, dispPlan_congr hw hh hl]
  | resizeNnRgb888 | resizeBlRgb888 | resizeNnRgba8888 | resizeBlRgba8888 | resizeOther =>
    obtain ⟨hw, hh, hl, -⟩ := hsrc nofun
    obtain ⟨haw, hah⟩ := hsize ⟨nofun, .inl (assemble_op _)⟩
    simp only [commandPlan, resizePlan_congr hw hh hl haw hah]
  | cropRgb888 | cropRgba8888 | cropOther =>
    obtain ⟨hw, hh, hl, -⟩ := hsrc nofun
    obtain ⟨haw, hah⟩ := hsize ⟨nofun, .inr (.inl (assemble_op _))⟩
    obtain ⟨hax, hay⟩ := hplace ⟨nofun, assemble_op _⟩
    simp only [commandPlan, cropPlan_congr hw hh hl haw hah hax hay]
  | pipeRgb565Nn | pipeRgb565Bl | pipeRgb888Nn | pipeRgb888Bl | pipeRgba8888Nn | pipeRgba8888Bl
  | pipeYuv888Nn | pipeYuv888Bl | pipeGray8Nn | pipeGray8Bl | pipeTag =>
    obtain ⟨hw, hh, hl, -⟩ := hsrc nofun
    obtain ⟨haw, hah⟩ := hsize ⟨nofun, .inr (.inr (assemble_op _))⟩
    simp only [commandPlan, pipePlan_congr hw hh hl haw hah (hmeta ⟨nofun, assemble_op _⟩)]

/-- A command whose checks pass is no illegal word, so it reads SRC_LEN and `SRC[0 .. SRC_LEN)`. -/
theorem usesSource_of_commandPlan_ok {i : Instr} {p : Params} {o : Operands} {plan : Plan}
    (h : commandPlan i p o = .ok plan) : AgreeOn.usesSource i := by
  rintro w rfl
  cases h

/-- Two states that agree on what a command reads give it the same source image. -/
theorem sourceImage_eq_of_agreeOn {i : Instr} {s s' : State} (h : AgreeOn i s s') (hi : AgreeOn.usesSource i) :
    readRange s.src 0 s.ops.srcLen.toNat = readRange s'.src 0 s'.ops.srcLen.toNat := by
  obtain ⟨-, hsrc, -⟩ := h
  obtain ⟨-, -, hl, hbytes⟩ := hsrc hi
  rw [← hl]
  exact readRange_congr fun k hk => by simpa using hbytes k hk

/-- Settles O54: both states give the command the same plan and the same image, and a commit takes the result
registers and DST from those two alone. -/
theorem resultDependsOnTheInputsAlone : Obligations.ResultDependsOnTheInputsAlone := by
  unfold Obligations.ResultDependsOnTheInputsAlone
  intro i s s' t hagree hnext
  have hparams : s.params = s'.params := hagree.1
  have hplan := commandPlan_eq_of_agreeOn hagree
  rw [exec_eq_finish, hplan] at hnext
  rcases finish_cases hnext with ⟨e, he, rfl⟩ | ⟨plan, hok, hfit, rfl⟩ | ⟨plan, img, hok, hfit, himg, rfl⟩
  · exact ⟨_, exec_error he, rfl, rfl⟩
  · exact ⟨_, exec_tooLong hok (hparams ▸ hfit), rfl, rfl⟩
  · rw [sourceImage_eq_of_agreeOn hagree (usesSource_of_commandPlan_ok hok)] at himg
    exact ⟨_, exec_ok hok (hparams ▸ hfit) himg, rfl, rfl⟩

end Sys2Proof.Proofs
end

section
/-!
The proof of the statement on what a conversion reads (spec/20_memory.md R73): the checks of CVT and DISP in their
order (spec/40_codec.md R120, spec/42_dispatch.md R180), each ending the command before SRC is read.
-/
namespace Sys2Proof.Proofs
open Sys2Proof.Machine Sys2Proof.Claim

/-! ## The error arm of the commit (10_state.md R34) -/

/-- DONE is bit 31 and ERR the low bits (10_state.md R28). -/
theorem statusOfError_toNat (e : ErrKind) : (statusOfError e).toNat = 2 ^ 31 + (errCode e).toNat := by
  cases e <;> rfl

theorem raiseError_fails (s : State) (e : ErrKind) : Fails s (raiseError s e) (errCode e).toNat where
  status := statusOfError_toNat e
  outW := rfl
  outH := rfl
  outCh := rfl
  outLen := rfl
  metaOut := rfl
  dst _ := rfl
  kept := ⟨rfl, rfl, rfl, fun _ => rfl, rfl, rfl, rfl, rfl⟩

/-- A command whose checks fail ends with that error, whatever SRC holds. -/
theorem endsWith_of_commandPlan_error {i : Instr} {s : State} {e : ErrKind}
    (h : commandPlan i s.params s.ops = .error e) : EndsWith i s (errCode e).toNat :=
  ⟨_, exec_error h, raiseError_fails s e⟩

/-- A command whose checks pass but whose output exceeds CAP ends with ResourceLimit, whatever SRC holds (log 8). -/
theorem endsWith_of_output_too_long {i : Instr} {s : State} {plan : Plan}
    (h : commandPlan i s.params s.ops = .ok plan)
    (hlong : fits s.params (plan.outW * plan.outH * plan.outCh) = false) : EndsWith i s 6 :=
  ⟨_, exec_tooLong h hlong, raiseError_fails s .resourceLimit⟩

/-! ## The checks of CVT, one by one (40_codec.md R120) -/

section CvtChecks
variable {p : Params} {o : Operands} {f t : Option ColorFormat} {b : Bool}

/-- R120 step 1. -/
theorem cvtPlan_source_too_long (h : fits p o.srcLen.toNat = false) :
    cvtPlan p o f b t = .error .resourceLimit := by
  rw [cvtPlan_spec, if_pos h]

/-- R120 steps 3 and 4. -/
theorem cvtPlan_misshapen {path : Path} (hpath : cvtPath p.q8 f b t = some path) (hfit : fits p o.srcLen.toNat = true)
    (h : o.srcW.toNat = 0 ∨ o.srcH.toNat = 0 ∨ o.srcLen.toNat ≠ o.srcW.toNat * o.srcH.toNat * path.srcBpp) :
    cvtPlan p o f b t = .error .shapeMismatch := by
  rw [cvtPlan_spec, if_neg (by simp [hfit]), hpath]
  exact if_pos h

end CvtChecks

/-! ## A dispatch has the checks of its conversion (42_dispatch.md R180 step 7) -/

/-- A channel count is the bytes per pixel of its source format (42_dispatch.md R181). -/
theorem formatOfChannels_bpp {ch : Byte} {f : ColorFormat} (h : formatOfChannels ch = some f) : bpp f = ch.toNat := by
  obtain ⟨h1, h4⟩ := formatOfChannels_range h
  have hch : ch = 1 ∨ ch = 2 ∨ ch = 3 ∨ ch = 4 := by bv_omega
  rcases hch with rfl | rfl | rfl | rfl <;> cases h <;> rfl

theorem some_canonicalOf_of_isCanonical :
    ∀ {t : Option ColorFormat}, isCanonical t = true → some (canonicalOf t) = t
  | some .rgb888, _ => rfl
  | some .rgba8888, _ => rfl

/-- The dispatcher's own checks of a good channel count and target are among those of the conversion it selects. -/
theorem dispPlan_eq_cvtPlan {ch : Byte} {f : ColorFormat} {t : Option ColorFormat} (hch : formatOfChannels ch = some f)
    (ht : isCanonical t = true) (p : Params) (o : Operands) :
    dispPlan p o ch t = cvtPlan p o (some f) false t := by
  obtain ⟨path, hpath⟩ := stage1_exists p.q8 hch t
  have hbpp : path.srcBpp = ch.toNat := (cvtPath_bpp hpath).1.trans (formatOfChannels_bpp hch)
  rw [some_canonicalOf_of_isCanonical ht] at hpath
  simp only [dispPlan, hch, ht]
  by_cases hfit : fits p o.srcLen.toNat = true
  · rw [if_neg (by simp [hfit]), if_neg (by simp)]
    split_ifs with hzero hlen
    · exact (cvtPlan_misshapen hpath hfit (by tauto)).symm
    · exact (cvtPlan_misshapen hpath hfit (by rw [hbpp]; tauto)).symm
    · rfl
  · rw [if_pos (by simp [hfit]), cvtPlan_source_too_long (by simpa using hfit)]

/-- R192: a dispatch row's plan is that of its CVT row. -/
theorem dispatchRow_plan {row : Instr × Nat × Bool × Instr} (h : row ∈ dispatchRows) (p : Params) (o : Operands) :
    commandPlan row.1 p o = commandPlan row.2.2.2 p o := by
  fin_cases h <;> dsimp only [commandPlan] <;> exact dispPlan_eq_cvtPlan rfl rfl p o

/-- R181: the CVT row of a dispatch row has a path with the same bytes per pixel. -/
theorem dispatchRow_converts :
    ∀ row ∈ dispatchRows, (row.2.2.2, row.2.1, if row.2.2.1 then 4 else 3) ∈ convertingRows := by
  decide

/-! ## The rows that have a path -/

/-- Command `i` has the checks and the plan of a conversion along a path from `b` to `c` bytes per pixel. -/
def RunsAlongPath (i : Instr) (b c : Nat) : Prop :=
  ∀ p : Params, ∃ f s t path, (∀ o : Operands, commandPlan i p o = cvtPlan p o f s t) ∧
    cvtPath p.q8 f s t = some path ∧ path.srcBpp = b ∧ path.dstBpp = c

/-- R121: the matrix cells that are not `U`, and the two pairs with S = 1. -/
theorem convertingRow_runsAlongPath {row : Instr × Nat × Nat} (h : row ∈ convertingRows) :
    RunsAlongPath row.1 row.2.1 row.2.2 := by
  intro p
  fin_cases h <;> dsimp only [commandPlan] <;> exact ⟨_, _, _, _, fun _ => rfl, rfl, rfl, rfl⟩

theorem dispatchRow_runsAlongPath {row : Instr × Nat × Bool × Instr} (h : row ∈ dispatchRows) :
    RunsAlongPath row.1 row.2.1 (if row.2.2.1 then 4 else 3) := by
  intro p
  simpa only [dispatchRow_plan h] using convertingRow_runsAlongPath (dispatchRow_converts row h) p

section RunsAlongPath
variable {i : Instr} {b c : Nat} (h : RunsAlongPath i b c) (s : State)
include h

theorem RunsAlongPath.source_too_long (hlong : fits s.params (srcLen s) = false) : EndsWith i s 6 := by
  obtain ⟨_, _, _, _, hplan, -⟩ := h s.params
  exact endsWith_of_commandPlan_error ((hplan s.ops).trans (cvtPlan_source_too_long hlong))

theorem RunsAlongPath.misshapen (hfit : fits s.params (srcLen s) = true)
    (hshape : srcW s = 0 ∨ srcH s = 0 ∨ srcLen s ≠ srcW s * srcH s * b) : EndsWith i s 1 := by
  obtain ⟨_, _, _, _, hplan, hpath, rfl, -⟩ := h s.params
  exact endsWith_of_commandPlan_error ((hplan s.ops).trans (cvtPlan_misshapen hpath hfit hshape))

theorem RunsAlongPath.output_too_long (hshape : Shaped s b) (hlong : fits s.params (srcW s * srcH s * c) = false) :
    EndsWith i s 6 := by
  obtain ⟨hfit, hw, hh, hlen⟩ := hshape
  obtain ⟨_, _, _, _, hplan, hpath, rfl, rfl⟩ := h s.params
  exact endsWith_of_output_too_long ((hplan s.ops).trans (cvtPlan_ok hpath hfit hw hh hlen)) hlong

end RunsAlongPath

/-- Settles O30: every row of the two tables runs along a path, and each check of such a command ends it. -/
theorem conversionChecksInOrder : Obligations.ConversionChecksInOrder := by
  unfold Obligations.ConversionChecksInOrder
  intro row hrow s
  have h : RunsAlongPath row.1 row.2.1 row.2.2 := by
    rcases List.mem_append.1 hrow with hcvt | hdisp
    · exact convertingRow_runsAlongPath hcvt
    · obtain ⟨d, hd, rfl⟩ := List.mem_map.1 hdisp
      exact dispatchRow_runsAlongPath hd
  exact ⟨h.source_too_long s, h.misshapen s, h.output_too_long s⟩

end Sys2Proof.Proofs
end

section
/-!
The proofs of the statements on the pixelwise conversions of CVT (spec/40_codec.md R120 to R132): what a command that
succeeds commits (spec/10_state.md R34), and the pixel functions over natural numbers (R124, R125).
-/
namespace Sys2Proof.Proofs
open Sys2Proof.Machine Sys2Proof.Claim

/-! ## The success arm of the commit (10_state.md R34) -/

/-- DONE is bit 31, DIAG bit 8, ERR = 0 (10_state.md R28). -/
theorem statusOfSuccess_eq (diag : Bool) :
    statusOfSuccess diag = if diag then 0x80000100 else 0x80000000 := by
  cases diag <;> rfl

/-- A commit of an output of the announced shape is the success arm, when the dimensions fit their registers. -/
theorem commitSuccess_succeeds (s : State) {plan : Plan} {out : List Byte} (hw : plan.outW < 2 ^ 32)
    (hh : plan.outH < 2 ^ 32) (hch : plan.outCh < 2 ^ 32)
    (hlen : out.length = plan.outW * plan.outH * plan.outCh) :
    Succeeds s (commitSuccess s plan out) plan.diag plan.outW plan.outH plan.outCh plan.metadata where
  status := statusOfSuccess_eq plan.diag
  outW := Nat.mod_eq_of_lt hw
  outH := Nat.mod_eq_of_lt hh
  outCh := Nat.mod_eq_of_lt hch
  outLen := hlen
  metaOut := rfl
  inside a ha := ⟨_, by rw [readByte_commitSuccess, if_pos (by omega)]⟩
  outside a ha := by rw [readByte_commitSuccess, if_neg (by omega)]
  kept := ⟨rfl, rfl, rfl, fun _ => rfl, rfl, rfl, rfl, rfl⟩

/-- A command whose checks pass, on a written source and with an output that fits, commits the output of the image
whose bytes are those of SRC. -/
theorem exec_succeeds {i : Instr} {s : State} {plan : Plan} (hplan : commandPlan i s.params s.ops = .ok plan)
    (hwritten : SourceWritten s) (hfit : fits s.params (plan.outW * plan.outH * plan.outCh) = true) :
    ∃ img, (∀ a, a < srcLen s → byteAt img a = srcByte s a) ∧
      exec i s = .next (commitSuccess s plan (plan.bytes img)) ∧
      Succeeds s (commitSuccess s plan (plan.bytes img)) plan.diag plan.outW plan.outH plan.outCh
        plan.metadata := by
  obtain ⟨img, hread, himg, hbytes⟩ := sourceImage hwritten
  have hsound := commandPlan_sound hplan
  refine ⟨img, fun a ha => ?_, exec_ok hplan hfit hread,
    commitSuccess_succeeds s hsound.width hsound.height hsound.channels (hsound.length img himg)⟩
  rw [srcByte, hbytes a ha]
  rfl

/-! ## A conversion along a path (40_codec.md R120 step 6, R122) -/

/-- Source pixel `P_p` of the image in SRC, `b` bytes per pixel (40_codec.md R122). -/
def sourcePixel (s : State) (b p : Nat) : Pixel := fun k => srcByte s (p * b + k)

/-- DST after a commit holds each piece of the output in its place. -/
theorem dstHolds_commitSuccess (s : State) (plan : Plan) {out bs : List Byte} {a : Nat}
    (hlen : a + bs.length ≤ out.length) (h : ∀ k, k < bs.length → out.getD (a + k) 0 = bs.getD k 0) :
    DstHolds (commitSuccess s plan out) a bs := by
  intro k hk
  rw [readByte_commitSuccess, if_pos (by omega), h k hk]

/-- A command with the checks of `CVT(f, b, t)`, whose path makes `g p` of source pixel `p`, converts a ready source
by `g`. -/
theorem converts_along_path {i : Instr} {s : State} (f : Option ColorFormat) (b : Bool) (t : Option ColorFormat)
    {path : Path} {g : Nat → List Byte} (hplan : commandPlan i s.params s.ops = cvtPlan s.params s.ops f b t)
    (hpath : cvtPath s.params.q8 f b t = some path)
    (hready : Ready s path.srcBpp (srcW s * srcH s * path.dstBpp))
    (hg : ∀ p, path.pixel (sourcePixel s path.srcBpp p) = g p) : Converts i s path.dstBpp g := by
  obtain ⟨⟨hfit, hw, hh, hlen⟩, hwritten, hfitOut⟩ := hready
  have hpixel := (cvtPath_sound hpath).length
  obtain ⟨img, hbytes, hexec, hsucceeds⟩ :=
    exec_succeeds (hplan.trans (cvtPlan_ok hpath hfit hw hh hlen)) hwritten hfitOut
  refine ⟨_, hexec, hsucceeds, fun p hp => ?_⟩
  have hlength : (g p).length = path.dstBpp := hg p ▸ hpixel _
  have hsource : path.pixel (pixelAt img path.srcBpp p) = g p :=
    (path_local hpath fun k hk => hbytes _ (hlen ▸ index_lt hp hk)).trans (hg p)
  refine ⟨hlength, dstHolds_commitSuccess s _ ?_ fun k hk => ?_⟩
  · rw [mapPixels_length hpixel, hlength, ← Nat.succ_mul]
    exact Nat.mul_le_mul_right _ hp
  · rw [mapPixels_getD hpixel _ img hp (hlength ▸ hk), hsource]

/-! ## The pixel functions over natural numbers (40_codec.md R124, R125) -/

theorem byte_toNat (b : Byte) : byte b.toNat = b := by simp [byte]

/-- Low byte first (20_memory.md R61). -/
theorem bytesOf565_eq (w : BitVec 16) : bytesOf565 w = [byte (w.toNat % 256), byte (w.toNat / 256)] := by
  have hlow : w.toNat % 256 = (w.extractLsb' 0 8).toNat := by simp
  have hhigh : w.toNat / 256 = (w.extractLsb' 8 8).toNat := by
    rw [BitVec.extractLsb'_toNat, Nat.shiftRight_eq_div_pow]
    omega
  rw [hlow, hhigh, byte_toNat, byte_toNat, bytesOf565]

theorem pixelPack_eq_packed (P : Pixel) : pixelPack P = packed (P 0).toNat (P 1).toNat (P 2).toNat := by
  rw [pixelPack, bytesOf565_eq, pack565_toNat, packed]

theorem pixelUnpack_eq_unpacked (P : Pixel) : pixelUnpack P = unpacked (P 0).toNat (P 1).toNat := by
  obtain ⟨hr, hg, hb⟩ := unpack565_toNat (wordOf565 (P 0) (P 1))
  rw [wordOf565_toNat] at hr hg hb
  rw [unpacked, ← hr, ← hg, ← hb, byte_toNat, byte_toNat, byte_toNat, pixelUnpack]

/-! ## The statements -/

/-- Settles O15: the path is that of `pixelPack`, which packs as R124's formula over numbers does. -/
theorem packTruncatesToRgb565LowByteFirst : Obligations.PackTruncatesToRgb565LowByteFirst :=
  ⟨rfl, fun _ hready =>
    converts_along_path (some .rgb888) false (some .rgb565) rfl rfl hready fun _ => pixelPack_eq_packed _⟩

/-- Settles O17: the path is that of `pixelUnpack`, which unpacks as R125's formula over numbers does. -/
theorem unpackZeroExtendsAndShifts : Obligations.UnpackZeroExtendsAndShifts :=
  ⟨rfl, fun _ hready =>
    converts_along_path (some .rgb565) false (some .rgb888) rfl rfl hready fun _ => pixelUnpack_eq_unpacked _⟩

/-- Settles O18: the path unpacks by R125, then adds one byte (R132). -/
theorem unpackThenOpaqueAlpha : Obligations.UnpackThenOpaqueAlpha :=
  ⟨rfl, fun _ hready =>
    converts_along_path (some .rgb565) false (some .rgba8888) rfl rfl hready fun _ =>
      congrArg (· ++ [255]) (pixelUnpack_eq_unpacked _)⟩

/-- Settles O20: the paths are those of `pixelDropAlpha` (R128) and `pixelAddAlpha` (R129), which list SRC's bytes. -/
theorem alphaIsDroppedOrOpaque : Obligations.AlphaIsDroppedOrOpaque :=
  ⟨rfl, rfl,
    fun _ hready => converts_along_path (some .rgba8888) false (some .rgb888) rfl rfl hready fun _ => rfl,
    fun _ hready => converts_along_path (some .rgb888) false (some .rgba8888) rfl rfl hready fun _ => rfl⟩

/-- Settles O21: the paths are those of `pixelReplicate` (R130) and `pixelReplicateAlpha` (R131); a pixel is one
byte. -/
theorem grayReplicates : Obligations.GrayReplicates :=
  ⟨rfl, rfl,
    fun _ hready => converts_along_path (some .gray8) false (some .rgb888) rfl rfl hready fun _ => by
      simp [pixelReplicate, sourcePixel],
    fun _ hready => converts_along_path (some .gray8) false (some .rgba8888) rfl rfl hready fun _ => by
      simp [pixelReplicateAlpha, sourcePixel]⟩

end Sys2Proof.Proofs
end

section
/-!
The proofs of the statements on the YUV conversions of CVT (spec/41_yuv.md R160, R161): the exact matrix values with the
model's reduced coefficients and with those of the rules.
-/
namespace Sys2Proof.Proofs
open Sys2Proof.Machine Sys2Proof.Claim

/-- R160: the coefficient 0.5 of the rule is the matrix entry 5/10. -/
theorem toYuv_eq_quantise_exact (q : Quantiser) (r g b : Rat) :
    toYuv q r g b = [quantise q (yuvExactY r g b), quantise q (yuvExactU r g b), quantise q (yuvExactV r g b)] := by
  have hhalf : (5 / 10 : Rat) = 1 / 2 := by norm_num
  rw [toYuv, yuvExactY, yuvExactU, yuvExactV, hhalf]

/-- R161: the coefficients of the rule are over 10^8, and 0.0000154 is the matrix entry 154/10^7. -/
theorem fromYuv_eq_quantise_exact (q : Quantiser) (y u v : Rat) :
    fromYuv q y u v = [quantise q (rgbExactR y u v), quantise q (rgbExactG y u v), quantise q (rgbExactB y u v)] := by
  have hscale : (10 : Rat) ^ 8 = 100000000 := by norm_num
  have hreduced : (1540 / 100000000 : Rat) = 154 / 10000000 := by norm_num
  rw [fromYuv, hscale, hreduced, rgbExactR, rgbExactG, rgbExactB]

theorem pixelToYuv_eq_toYuv (q : Quantiser) (P : Pixel) :
    pixelToYuv q P = toYuv q (P 0).toNat (P 1).toNat (P 2).toNat :=
  (toYuv_eq_quantise_exact q _ _ _).symm

theorem pixelFromYuv_eq_fromYuv (q : Quantiser) (P : Pixel) :
    pixelFromYuv q P = fromYuv q (P 0).toNat (P 1).toNat (P 2).toNat :=
  (fromYuv_eq_quantise_exact q _ _ _).symm

/-- Settles O22: the path is that of `pixelToYuv`, which quantises R160's exact values. -/
theorem rgbToYuvQuantisesTheExactValues : Obligations.RgbToYuvQuantisesTheExactValues :=
  ⟨rfl, fun s hready =>
    converts_along_path (some .rgb888) false (some .yuv888) rfl rfl hready fun _ =>
      pixelToYuv_eq_toYuv s.params.q8 _⟩

/-- Settles O23: the path is that of `pixelFromYuv`, which quantises R161's exact values. -/
theorem yuvToRgbQuantisesTheExactValues : Obligations.YuvToRgbQuantisesTheExactValues :=
  ⟨rfl, fun s hready =>
    converts_along_path (some .yuv888) false (some .rgb888) rfl rfl hready fun _ =>
      pixelFromYuv_eq_fromYuv s.params.q8 _⟩

end Sys2Proof.Proofs
end

section
/-!
The proof of the statement on the dispatcher's failures (spec/42_dispatch.md R190, R191): the checks of R180 that
a dispatch adds to those of its conversion, each ending the command whatever comes after it.
-/
namespace Sys2Proof.Proofs
open Sys2Proof.Machine Sys2Proof.Claim

/-- A bad channel count has no source format (30_encoding.md R96, 42_dispatch.md R181). -/
theorem formatOfChannels_eq_none {ch : Byte} (h : badChannelCount ch = true) : formatOfChannels ch = none := by
  rw [Option.eq_none_iff_forall_ne_some]
  intro f hf
  obtain ⟨hpos, hle⟩ := formatOfChannels_range hf
  have hbad : ch = 0 ∨ 5 ≤ ch.toNat := by simpa [badChannelCount] using h
  rcases hbad with rfl | hlarge
  · exact absurd hpos (by decide)
  · omega

/-- The tags 2 and 3 alone name a canonical format (30_encoding.md R92). -/
theorem isCanonical_formatOfTag_iff (t : Tag) : isCanonical (formatOfTag t) = true ↔ t = 2 ∨ t = 3 := by
  rcases tag_cases t with rfl | rfl | rfl | rfl | rfl | rfl | rfl | rfl <;> decide

section DispatchFailures
variable {p : Params} {o : Operands} {ch : Byte} {t : Option ColorFormat}

/-- R180 step 2: looked at after the capacity of the source, before the target and the shape. -/
theorem dispPlan_unsupportedChannelCount (hch : formatOfChannels ch = none) :
    dispPlan p o ch t =
      .error (if fits p o.srcLen.toNat then .unsupportedChannelCount else .resourceLimit) := by
  by_cases hfit : fits p o.srcLen.toNat = true <;> simp [dispPlan, hfit, hch]

/-- R180 step 3: looked at after the capacity and the channel count, before the shape. -/
theorem dispPlan_unsupportedConversion {f : ColorFormat} (hch : formatOfChannels ch = some f)
    (ht : isCanonical t = false) :
    dispPlan p o ch t = .error (if fits p o.srcLen.toNat then .unsupportedConversion else .resourceLimit) := by
  by_cases hfit : fits p o.srcLen.toNat = true <;> simp [dispPlan, hfit, hch, ht]

end DispatchFailures

/-- A command that fails with `e` once its source fits ends with `e`, and with 6 if the source exceeds CAP. -/
theorem endsWith_of_error_if_source_fits {i : Instr} {s : State} {e : ErrKind}
    (h : commandPlan i s.params s.ops = .error (if fits s.params (srcLen s) then e else .resourceLimit)) :
    EndsWith i s (if fits s.params (srcLen s) then (errCode e).toNat else 6) := by
  have hends := endsWith_of_commandPlan_error h
  split_ifs at hends ⊢ <;> exact hends

/-- Settles O32: a bad channel count fails at R180 step 2 and a bad target of a good one at step 3. -/
theorem dispatchFailuresEndWithTheirError : Obligations.DispatchFailuresEndWithTheirError := by
  unfold Obligations.DispatchFailuresEndWithTheirError
  intro s
  constructor
  · intro target ch hbad
    exact endsWith_of_error_if_source_fits (e := .unsupportedChannelCount)
      (dispPlan_unsupportedChannelCount (formatOfChannels_eq_none hbad))
  · intro target h2 h3 i hi
    have ht : isCanonical (formatOfTag target) = false :=
      Bool.eq_false_iff.2 fun h => ((isCanonical_formatOfTag_iff target).1 h).elim h2 h3
    have hplan : commandPlan i s.params s.ops =
        .error (if fits s.params (srcLen s) then .unsupportedConversion else .resourceLimit) := by
      fin_cases hi <;> dsimp only [commandPlan] <;> exact dispPlan_unsupportedConversion rfl ht
    exact endsWith_of_error_if_source_fits hplan

end Sys2Proof.Proofs
end

section
/-!
The proofs of the statements on the results of RESIZE and CROP (spec/43_geometry.md R200 to R223): the plan of each
command on a well-shaped image, the no-op result (R225), the target dimensions (R202 to R206) and the sub-rectangle
(R222).
-/
namespace Sys2Proof.Proofs
open Sys2Proof.Machine Sys2Proof.Claim

/-! ## The plans of RESIZE and CROP after the prologue (43_geometry.md R207, R220) -/

/-- What a resize to `nw` by `nh` delivers (43_geometry.md R207 step 9). -/
def resampledPlan (p : Params) (kind : InterpKind) (b iw ih nw nh : Nat) : Plan where
  diag := false
  outW := nw
  outH := nh
  outCh := b
  metadata := 0
  bytes img := resample p kind b img iw ih nw nh

/-- What a crop of a rectangle inside the image delivers (43_geometry.md R222). -/
def rectanglePlan (o : Operands) (iw b : Nat) : Plan where
  diag := false
  outW := o.argW.toNat
  outH := o.argH.toNat
  outCh := b
  metadata := 0
  bytes := cropBytes iw b o.argX.toNat o.argY.toNat o.argW.toNat o.argH.toNat

theorem resizeDims_identity (ow oh : Nat) : resizeDims ow oh 0 0 = .identity := rfl

theorem resizeDims_scaled (ow oh : Nat) {w h : Nat} (hne : w ≠ 0 ∨ h ≠ 0) :
    resizeDims ow oh w h = .scaled (targetDims ow oh w h).1 (targetDims ow oh w h).2 := by
  rw [resizeDims, targetDims, if_neg (by tauto)]
  split_ifs <;> rfl

section PlanAfterPrologue
variable {p : Params} {o : Operands} {fmt : Option ColorFormat} {kind : InterpKind} {iw ih b : Nat}
  (hpass : prologue p o fmt = .ok (iw, ih, b))
include hpass

/-- R207 step 6: `(0, 0)` asks for the source itself (R202). -/
theorem resizePlan_identity (hw : o.argW.toNat = 0) (hh : o.argH.toNat = 0) :
    resizePlan p o fmt kind = .ok (noOpPlan false iw ih b) := by
  simp only [resizePlan, hpass, hw, hh, resizeDims_identity]

/-- R207 steps 7 to 9: a zero target dimension, a target beyond the limits, the resampled image. -/
theorem resizePlan_scaled (hne : o.argW.toNat ≠ 0 ∨ o.argH.toNat ≠ 0) :
    resizePlan p o fmt kind =
      let d := targetDims iw ih o.argW.toNat o.argH.toNat
      if d.1 = 0 ∨ d.2 = 0 then .ok (noOpPlan true iw ih b)
      else if 2 ^ 32 ≤ d.1 ∨ 2 ^ 32 ≤ d.2 ∨ fits p (d.1 * d.2 * b) = false then .error .resourceLimit
      else .ok (resampledPlan p kind b iw ih d.1 d.2) := by
  simp only [resizePlan, hpass, resizeDims_scaled iw ih hne, Bool.not_eq_true', resampledPlan]

/-- R220 steps 5 to 7: the rectangles that R221 lets through are extracted, every other one returns the source. -/
theorem cropPlan_spec :
    cropPlan p o fmt =
      if o.argW.toNat = 0 ∨ iw < o.argW.toNat ∨ o.argH.toNat = 0 ∨ ih < o.argH.toNat ∨
        iw < o.argX.toNat + o.argW.toNat ∨ ih < o.argY.toNat + o.argH.toNat
      then .ok (noOpPlan true iw ih b)
      else .ok (rectanglePlan o iw b) := by
  simp only [cropPlan, hpass, ite_or, rectanglePlan]

end PlanAfterPrologue

/-! ## The rows on a well-shaped image (43_geometry.md R200) -/

/-- The prologue passes on a well-shaped image of a canonical format. -/
theorem prologue_of_shaped {s : State} {f : ColorFormat} (hcanonical : isCanonical (some f) = true)
    (hshape : Shaped s (bpp f)) : prologue s.params s.ops (some f) = .ok (srcW s, srcH s, bpp f) :=
  prologue_pass hcanonical hshape.fitsIn hshape.width hshape.height hshape.length

theorem resizeRow_plan {row : Instr × InterpKind × Nat} (hrow : row ∈ resizeRows) {s : State}
    (hshape : Shaped s row.2.2) :
    ∃ fmt, commandPlan row.1 s.params s.ops = resizePlan s.params s.ops fmt row.2.1 ∧
      prologue s.params s.ops fmt = .ok (srcW s, srcH s, row.2.2) := by
  fin_cases hrow <;> exact ⟨_, rfl, prologue_of_shaped rfl hshape⟩

theorem cropRow_plan {row : Instr × Nat} (hrow : row ∈ cropRows) {s : State} (hshape : Shaped s row.2) :
    ∃ fmt, commandPlan row.1 s.params s.ops = cropPlan s.params s.ops fmt ∧
      prologue s.params s.ops fmt = .ok (srcW s, srcH s, row.2) := by
  fin_cases hrow <;> exact ⟨_, rfl, prologue_of_shaped rfl hshape⟩

/-! ## What the commits deliver -/

/-- The no-op result: the source's dimensions and bytes (43_geometry.md R225). -/
theorem noOp_returns_source {i : Instr} {s : State} {diag : Bool} {b : Nat}
    (hplan : commandPlan i s.params s.ops = .ok (noOpPlan diag (srcW s) (srcH s) b))
    (hready : Ready s b (srcLen s)) :
    ∃ t, exec i s = .next t ∧ Succeeds s t diag (srcW s) (srcH s) b 0 ∧
      ∀ a, a < srcLen s → readByte t.dst a = some (srcByte s a) := by
  obtain ⟨⟨-, -, -, hlen⟩, hwritten, hfit⟩ := hready
  obtain ⟨img, hbytes, hexec, hsucceeds⟩ := exec_succeeds hplan hwritten (hlen ▸ hfit)
  refine ⟨_, hexec, hsucceeds, fun a ha => ?_⟩
  have himg : img.length = srcLen s := hsucceeds.outLen.trans hlen.symm
  rw [readByte_commitSuccess, ← hbytes a ha]
  exact if_pos (himg ▸ ha)

/-- DST after the commit of a built image, by row, column and byte (20_memory.md R64). -/
theorem readByte_commitSuccess_buildImage (s : State) (plan : Plan) {w h b r c k : Nat} (f : Nat → Nat → Nat → Byte)
    (hr : r < h) (hc : c < w) (hk : k < b) :
    readByte (commitSuccess s plan (buildImage w h b f)).dst ((r * w + c) * b + k) = some (f r c k) := by
  have hindex : (r * w + c) * b + k < w * h * b := Nat.mul_comm h w ▸ index_lt (index_lt hr hc) hk
  rw [readByte_commitSuccess, buildImage_length, if_pos hindex, buildImage_getD hr hc hk]

/-- A byte of the source image is a byte of SRC (20_memory.md R64). -/
theorem imageByte_eq_srcByte {s : State} {b y x k : Nat} {img : List Byte} (hshape : Shaped s b)
    (hbytes : ∀ a, a < srcLen s → byteAt img a = srcByte s a) (hy : y < srcH s) (hx : x < srcW s) (hk : k < b) :
    imageByte img (srcW s) b y x k = srcByte s ((y * srcW s + x) * b + k) := by
  refine hbytes _ ?_
  rw [hshape.length, Nat.mul_comm (srcW s)]
  exact index_lt (index_lt hy hx) hk

/-! ## RESIZE -/

/-- Settles O33: `(0, 0)` plans the no-op result before `Resample` is asked (R207 step 6). -/
theorem resizeZeroZeroIsIdentity : Obligations.ResizeZeroZeroIsIdentity := by
  unfold Obligations.ResizeZeroZeroIsIdentity
  intro row hrow s hready hw hh
  obtain ⟨fmt, hplan, hpass⟩ := resizeRow_plan hrow hready.shaped
  exact noOp_returns_source (hplan.trans (resizePlan_identity hpass hw hh)) hready

/-- Settles O34: dimensions that are not 0 and within the limits reach step 9 of R207, and a resampled image has the
length of its plan for every `Resample` (R208). -/
theorem resizeDeliversTheTargetDimensions : Obligations.ResizeDeliversTheTargetDimensions := by
  unfold Obligations.ResizeDeliversTheTargetDimensions
  intro row hrow s hne d hready hd1 hd2 hlim1 hlim2
  obtain ⟨hshape, hwritten, hfit⟩ := hready
  obtain ⟨fmt, hplan, hpass⟩ := resizeRow_plan hrow hshape
  have hwithin : ¬(2 ^ 32 ≤ d.1 ∨ 2 ^ 32 ≤ d.2 ∨ fits s.params (d.1 * d.2 * row.2.2) = false) := by
    simpa [hfit] using ⟨hlim1, hlim2⟩
  have hscaled : resizePlan s.params s.ops fmt row.2.1 =
      .ok (resampledPlan s.params row.2.1 row.2.2 (srcW s) (srcH s) d.1 d.2) :=
    (resizePlan_scaled hpass hne).trans ((if_neg (not_or.2 ⟨hd1, hd2⟩)).trans (if_neg hwithin))
  obtain ⟨_, -, hexec, hsucceeds⟩ := exec_succeeds (hplan.trans hscaled) hwritten hfit
  exact ⟨_, hexec, hsucceeds⟩

/-- Settles O35: a zero target dimension plans the no-op result with the diagnostic (R207 step 7). -/
theorem resizeToNothingIsDiagnosedNoOp : Obligations.ResizeToNothingIsDiagnosedNoOp := by
  unfold Obligations.ResizeToNothingIsDiagnosedNoOp
  intro row hrow s hready hne d hzero
  obtain ⟨fmt, hplan, hpass⟩ := resizeRow_plan hrow hready.shaped
  exact noOp_returns_source (hplan.trans ((resizePlan_scaled hpass hne).trans (if_pos hzero))) hready

/-! ## CROP -/

/-- Settles O40: the rectangle is no larger than the image, so its bytes fit, and output pixel `(r, c)` is the source
pixel `(cy + r, cx + c)`, which lies in the image. -/
theorem cropExtractsTheSubRectangle : Obligations.CropExtractsTheSubRectangle := by
  unfold Obligations.CropExtractsTheSubRectangle
  intro row hrow s hready hw hh hx hy
  obtain ⟨hshape, hwritten, hfit⟩ := hready
  obtain ⟨fmt, hplan, hpass⟩ := cropRow_plan hrow hshape
  have hinside : ¬(argW s = 0 ∨ srcW s < argW s ∨ argH s = 0 ∨ srcH s < argH s ∨
      srcW s < argX s + argW s ∨ srcH s < argY s + argH s) := by omega
  have hsmaller : argW s * argH s * row.2 ≤ srcLen s := by
    rw [hshape.length]
    exact Nat.mul_le_mul_right _ (Nat.mul_le_mul (by omega) (by omega))
  obtain ⟨img, hbytes, hexec, hsucceeds⟩ := exec_succeeds
    (hplan.trans ((cropPlan_spec hpass).trans (if_neg hinside))) hwritten (fits_mono hfit hsmaller)
  refine ⟨_, hexec, hsucceeds, fun r c k hr hc hk => ?_⟩
  calc readByte _ ((r * argW s + c) * row.2 + k)
      = some (imageByte img (srcW s) row.2 (argY s + r) (argX s + c) k) :=
        readByte_commitSuccess_buildImage s _ _ hr hc hk
    _ = some (srcByte s (((argY s + r) * srcW s + argX s + c) * row.2 + k)) := by
        rw [imageByte_eq_srcByte hshape hbytes (by omega) (by omega) hk, Nat.add_assoc _ (argX s) c]

/-- Settles O41: every rectangle that R221 does not let through plans the no-op result with the diagnostic (R223). -/
theorem cropOutOfBoundsIsDiagnosedNoOp : Obligations.CropOutOfBoundsIsDiagnosedNoOp := by
  unfold Obligations.CropOutOfBoundsIsDiagnosedNoOp
  intro row hrow s hready houtside
  obtain ⟨fmt, hplan, hpass⟩ := cropRow_plan hrow hready.shaped
  exact noOp_returns_source (hplan.trans ((cropPlan_spec hpass).trans (if_pos houtside))) hready

end Sys2Proof.Proofs
end

section
/-!
The proofs of the statements on the encoding (spec/30_encoding.md R90 to R103): the fields of a word are those of one
family or lie in the illegal space, and which rows of the ordered table take a word, field by field.
-/
namespace Sys2Proof.Proofs

/-! ## The decoder on the fields of each family (30_encoding.md R97) -/

section DecodeFamily
variable (w : Word) (a b : Tag) (s : BitVec 1) (ch : Byte) (k : InterpKind)

theorem decodeFields_cvtFields : decodeFields w (cvtFields a s b) = decodeCvt a s b := rfl
theorem decodeFields_dispFields : decodeFields w (dispFields ch b) = decodeDisp ch b := rfl
theorem decodeFields_resizeFields : decodeFields w (resizeFields a k) = decodeResize a k := by cases k <;> rfl
theorem decodeFields_cropFields : decodeFields w (cropFields a) = decodeCrop a := rfl
theorem decodeFields_pipeFields : decodeFields w (pipeFields ch b k) = decodePipe ch b k := by cases k <;> rfl

theorem decode_assemble_cvtFields : decode (assemble (cvtFields a s b)) = decodeCvt a s b := by
  rw [decode, fieldsOf_assemble, decodeFields_cvtFields]

theorem decode_assemble_dispFields : decode (assemble (dispFields ch b)) = decodeDisp ch b := by
  rw [decode, fieldsOf_assemble, decodeFields_dispFields]

theorem decode_assemble_resizeFields : decode (assemble (resizeFields a k)) = decodeResize a k := by
  rw [decode, fieldsOf_assemble, decodeFields_resizeFields]

theorem decode_assemble_cropFields : decode (assemble (cropFields a)) = decodeCrop a := by
  rw [decode, fieldsOf_assemble, decodeFields_cropFields]

theorem decode_assemble_pipeFields : decode (assemble (pipeFields ch b k)) = decodePipe ch b k := by
  rw [decode, fieldsOf_assemble, decodeFields_pipeFields]

end DecodeFamily

/-! ## The illegal space and the five families (30_encoding.md R103) -/

theorem illegalFields_eq_false_iff (f : Fields) :
    illegalFields f = false ↔
      f.op ≠ 0 ∧ f.op.toNat < 6 ∧ f.z11 = 0 ∧ f.z14 = 0 ∧ f.z24 = 0 ∧
      (usesFrom f.op = false → f.src = 0) ∧ (usesS f.op = false → f.s = 0) ∧ (usesTo f.op = false → f.dst = 0) ∧
      (usesIk f.op = false → f.ik = 0) ∧ (usesCh f.op = false → f.ch = 0) ∧
      (usesIk f.op = true → f.ik.toNat < 2) := by
  simp [illegalFields, and_assoc]

/-- R95: the values of IK that are not reserved name a kind. -/
theorem exists_ikOfKind {ik : BitVec 2} (h : ik.toNat < 2) : ∃ k, ikOfKind k = ik := by
  rcases ik_cases ik with rfl | rfl | rfl | rfl
  · exact ⟨.nearest, rfl⟩
  · exact ⟨.bilinear, rfl⟩
  · exact absurd h (by decide)
  · exact absurd h (by decide)

/-- R97: fields outside the illegal space are those of one family. -/
theorem fields_cases_of_legal {f : Fields} (h : illegalFields f = false) :
    (∃ a s b, f = cvtFields a s b) ∨ (∃ ch b, f = dispFields ch b) ∨ (∃ a k, f = resizeFields a k) ∨
      (∃ a, f = cropFields a) ∨ ∃ ch b k, f = pipeFields ch b k := by
  obtain ⟨op, src, s, dst, ik, ch, z11, z14, z24⟩ := f
  obtain ⟨h0, h6, rfl, rfl, rfl, hsrc, hs, hdst, hik, hch, hkind⟩ := (illegalFields_eq_false_iff _).1 h
  dsimp only at h0 h6 hsrc hs hdst hik hch hkind
  rcases op_cases op with rfl | rfl | rfl | rfl | rfl | rfl | hlarge
  · obtain rfl := hik rfl
    obtain rfl := hch rfl
    exact .inl ⟨src, s, dst, rfl⟩
  · obtain rfl := hsrc rfl
    obtain rfl := hs rfl
    obtain rfl := hik rfl
    exact .inr (.inl ⟨ch, dst, rfl⟩)
  · obtain rfl := hs rfl
    obtain rfl := hdst rfl
    obtain rfl := hch rfl
    obtain ⟨k, rfl⟩ := exists_ikOfKind (hkind rfl)
    exact .inr (.inr (.inl ⟨src, k, rfl⟩))
  · obtain rfl := hs rfl
    obtain rfl := hdst rfl
    obtain rfl := hik rfl
    obtain rfl := hch rfl
    exact .inr (.inr (.inr (.inl ⟨src, rfl⟩)))
  · obtain rfl := hsrc rfl
    obtain rfl := hs rfl
    obtain ⟨k, rfl⟩ := exists_ikOfKind (hkind rfl)
    exact .inr (.inr (.inr (.inr ⟨ch, dst, k, rfl⟩)))
  · exact absurd rfl h0
  · omega

/-- R97: a word of the illegal space is illegal; every other one is the word of a family, and is decoded by it. -/
theorem word_cases (w : Word) :
    (illegalFields (fieldsOf w) = true ∧ decode w = .illegal w) ∨ (∃ a s b, w = assemble (cvtFields a s b)) ∨
      (∃ ch b, w = assemble (dispFields ch b)) ∨ (∃ a k, w = assemble (resizeFields a k)) ∨
      (∃ a, w = assemble (cropFields a)) ∨ ∃ ch b k, w = assemble (pipeFields ch b k) := by
  cases hw : illegalFields (fieldsOf w) with
  | true => exact .inl ⟨rfl, decodeFields_of_illegal w _ hw⟩
  | false =>
    refine .inr ?_
    rw [← assemble_fieldsOf w]
    rcases fields_cases_of_legal hw with ⟨a, s, b, h⟩ | ⟨ch, b, h⟩ | ⟨a, k, h⟩ | ⟨a, h⟩ | ⟨ch, b, k, h⟩
    · exact .inl ⟨a, s, b, congrArg assemble h⟩
    · exact .inr (.inl ⟨ch, b, congrArg assemble h⟩)
    · exact .inr (.inr (.inl ⟨a, k, congrArg assemble h⟩))
    · exact .inr (.inr (.inr (.inl ⟨a, congrArg assemble h⟩)))
    · exact .inr (.inr (.inr (.inr ⟨ch, b, k, congrArg assemble h⟩)))

/-! ## Decoding and encoding are inverse -/

/-- R92: the tags 5 to 7 name no format. -/
theorem formatOfTag_eq_none : ∀ {t : Tag}, unrecognizedTag t = true → formatOfTag t = none := by
  decide

/-- Settles O4: the word of a command has the fields of its family, and the family's decoder takes the command's own
arguments to the command; a tag argument is looked at value by value. -/
theorem decodeInvertsEncode : Obligations.DecodeInvertsEncode := by
  unfold Obligations.DecodeInvertsEncode
  intro i hi
  cases i with
  | cvtGray8Gray8 | cvtGray8Rgb565 | cvtGray8Rgb888 | cvtGray8Rgba8888 | cvtGray8Yuv888
  | cvtRgb565Gray8 | cvtRgb565Rgb565 | cvtRgb565Rgb888 | cvtRgb565Rgba8888 | cvtRgb565Yuv888
  | cvtRgb888Gray8 | cvtRgb888Rgb565 | cvtRgb888Rgb888 | cvtRgb888Rgba8888 | cvtRgb888Yuv888
  | cvtRgba8888Gray8 | cvtRgba8888Rgb565 | cvtRgba8888Rgb888 | cvtRgba8888Rgba8888 | cvtRgba8888Yuv888
  | cvtYuv888Gray8 | cvtYuv888Rgb565 | cvtYuv888Rgb888 | cvtYuv888Rgba8888 | cvtYuv888Yuv888
  | cvtBgr888Rgb565 | cvtBgr888Rgb888 => exact decode_assemble_cvtFields _ _ _
  | cvtS1Other src dst =>
    refine (decode_assemble_cvtFields src dst 1).trans ?_
    revert src dst
    decide
  | cvtTag src dst =>
    refine (decode_assemble_cvtFields src dst 0).trans ?_
    revert src dst
    decide
  | dispRgb888Ch1 | dispRgba8888Ch1 | dispRgb888Ch2 | dispRgba8888Ch2
  | dispRgb888Ch3 | dispRgba8888Ch3 | dispRgb888Ch4 | dispRgba8888Ch4 => exact decode_assemble_dispFields _ _
  | dispOtherCh1 target | dispOtherCh2 target | dispOtherCh3 target | dispOtherCh4 target =>
    refine (decode_assemble_dispFields target _).trans ?_
    revert target
    decide
  | dispAnyChOther target ch =>
    refine (decode_assemble_dispFields target ch).trans ?_
    have hbad : ch = 0 ∨ 5 ≤ ch.toNat := by simpa [WellFormed, wellFormed, badChannelCount] using hi
    have hch : ch ≠ 1 ∧ ch ≠ 2 ∧ ch ≠ 3 ∧ ch ≠ 4 := by bv_omega
    obtain ⟨h1, h2, h3, h4⟩ := hch
    rw [decodeDisp, if_neg h1, if_neg h2, if_neg h3, if_neg h4]
  | resizeNnRgb888 | resizeBlRgb888 | resizeNnRgba8888 | resizeBlRgba8888 =>
    exact decode_assemble_resizeFields _ _
  | resizeOther fmt kind =>
    refine (decode_assemble_resizeFields fmt kind).trans ?_
    cases kind <;> revert fmt <;> decide
  | cropRgb888 | cropRgba8888 => exact decode_assemble_cropFields _
  | cropOther fmt =>
    refine (decode_assemble_cropFields fmt).trans ?_
    revert fmt
    decide
  | pipeRgb565Nn | pipeRgb565Bl | pipeRgb888Nn | pipeRgb888Bl | pipeRgba8888Nn | pipeRgba8888Bl
  | pipeYuv888Nn | pipeYuv888Bl | pipeGray8Nn | pipeGray8Bl => exact decode_assemble_pipeFields _ _ _
  | pipeTag out kind ch =>
    refine (decode_assemble_pipeFields out ch kind).trans ?_
    simp only [decodePipe, formatOfTag_eq_none hi]
  | illegal word => exact decodeFields_of_illegal word _ hi

/-- Settles O5: an illegal word is its own encoding; in each family the decoder's row is well formed and encodes to
the family's fields, which are all of the word. -/
theorem encodeInvertsDecode : Obligations.EncodeInvertsDecode := by
  unfold Obligations.EncodeInvertsDecode
  intro w
  rcases word_cases w with ⟨hillegal, hw⟩ | ⟨a, s, b, rfl⟩ | ⟨ch, b, rfl⟩ | ⟨a, k, rfl⟩ | ⟨a, rfl⟩ | ⟨ch, b, k, rfl⟩
  · rw [hw]
    exact ⟨hillegal, rfl⟩
  · rw [decode_assemble_cvtFields]
    exact decodeCvt_row a s b
  · rw [decode_assemble_dispFields]
    exact decodeDisp_row ch b
  · rw [decode_assemble_resizeFields]
    exact decodeResize_row a k
  · rw [decode_assemble_cropFields]
    exact decodeCrop_row a
  · rw [decode_assemble_pipeFields]
    exact decodePipe_row ch b k

/-! ## The illegal words, by number -/

theorem decode_eq_illegal_iff (w : Word) : decode w = .illegal w ↔ illegalFields (fieldsOf w) = true := by
  constructor
  · intro h
    have hwf : WellFormed (decode w) := (encodeInvertsDecode w).1
    rwa [h] at hwf
  · exact decodeFields_of_illegal w _

/-- R103 (a), with the fields as numbers. -/
theorem illegalFields_iff (f : Fields) :
    illegalFields f = true ↔
      f.op.toNat = 0 ∨ 6 ≤ f.op.toNat ∨ f.z11.toNat ≠ 0 ∨ f.z14.toNat ≠ 0 ∨ f.z24.toNat ≠ 0 ∨
      (f.op.toNat = 1 ∧ (f.ik.toNat ≠ 0 ∨ f.ch.toNat ≠ 0)) ∨
      (f.op.toNat = 2 ∧ (f.src.toNat ≠ 0 ∨ f.s.toNat ≠ 0 ∨ f.ik.toNat ≠ 0)) ∨
      (f.op.toNat = 3 ∧ (f.s.toNat ≠ 0 ∨ f.dst.toNat ≠ 0 ∨ f.ch.toNat ≠ 0 ∨ 2 ≤ f.ik.toNat)) ∨
      (f.op.toNat = 4 ∧ (f.s.toNat ≠ 0 ∨ f.dst.toNat ≠ 0 ∨ f.ik.toNat ≠ 0 ∨ f.ch.toNat ≠ 0)) ∨
      (f.op.toNat = 5 ∧ (f.src.toNat ≠ 0 ∨ f.s.toNat ≠ 0 ∨ 2 ≤ f.ik.toNat)) := by
  simp only [illegalFields, usesFrom, usesS, usesTo, usesIk, usesCh, opCvt, opDisp, opResize, opCrop, opPipe,
    Bool.or_eq_true, Bool.and_eq_true, Bool.not_eq_true', Bool.or_eq_false_iff, beq_iff_eq, bne_iff_ne, ne_eq,
    beq_eq_false_iff_ne, decide_eq_true_eq, ← BitVec.toNat_inj, BitVec.ofNat_eq_ofNat, BitVec.toNat_ofNat]
  constructor <;> intro h <;> omega

/-- The fields of a word by division, as R7 reads bits. -/
theorem fieldsOf_toNat (w : Word) :
    (fieldsOf w).op.toNat = w.toNat % 16 ∧ (fieldsOf w).src.toNat = w.toNat / 16 % 8 ∧
    (fieldsOf w).s.toNat = w.toNat / 128 % 2 ∧ (fieldsOf w).dst.toNat = w.toNat / 256 % 8 ∧
    (fieldsOf w).z11.toNat = w.toNat / 2048 % 2 ∧ (fieldsOf w).ik.toNat = w.toNat / 4096 % 4 ∧
    (fieldsOf w).z14.toNat = w.toNat / 16384 % 4 ∧ (fieldsOf w).ch.toNat = w.toNat / 65536 % 256 ∧
    (fieldsOf w).z24.toNat = w.toNat / 16777216 := by
  simp only [fieldsOf, BitVec.extractLsb'_toNat, Nat.shiftRight_eq_div_pow, true_and]
  omega

/-- Settles O6: the decoder's illegal space with each field read by division. -/
theorem illegalExactlyTheReservedSpace : Obligations.IllegalExactlyTheReservedSpace := by
  unfold Obligations.IllegalExactlyTheReservedSpace
  intro w
  obtain ⟨hop, hsrc, hs, hdst, h11, hik, h14, hch, h24⟩ := fieldsOf_toNat w
  dsimp only
  rw [decode_eq_illegal_iff, illegalFields_iff, hop, hsrc, hs, hdst, h11, hik, h14, hch, h24]

/-! ## Which rows of the table take a word (30_encoding.md R99) -/

/-- The fields of a word under a mask, field by field. -/
def maskFields (f m : Fields) : Fields where
  op := f.op &&& m.op
  src := f.src &&& m.src
  s := f.s &&& m.s
  dst := f.dst &&& m.dst
  ik := f.ik &&& m.ik
  ch := f.ch &&& m.ch
  z11 := f.z11 &&& m.z11
  z14 := f.z14 &&& m.z14
  z24 := f.z24 &&& m.z24

theorem rowTakes_iff_maskFields (r : Row) (w : Word) :
    rowTakes r w = true ↔ maskFields (fieldsOf w) (fieldsOf r.mask) = fieldsOf r.pattern := by
  rw [rowTakes, beq_iff_eq, ← (Function.LeftInverse.injective assemble_fieldsOf).eq_iff]
  simp only [maskFields, fieldsOf, BitVec.extractLsb'_and]

theorem eq_of_masked {n : Nat} {x m p : BitVec n} (hm : m = BitVec.allOnes n) (h : x &&& m = p) : x = p := by
  rwa [hm, BitVec.and_allOnes] at h

/-- The table without its last row, which takes every word. -/
def commandRows : List Row := cvtRows ++ dispRows ++ geometryRows ++ pipeRows

/-- A row of pattern `p` and mask `m` pins to legal values every field that can make a word illegal. -/
def PinsLegal (p m : Fields) : Prop :=
  illegalFields p = false ∧ m.op = 15 ∧ m.z11 = 1 ∧ m.z14 = 3 ∧ m.z24 = 255 ∧
  (usesFrom p.op = false → m.src = 7) ∧ (usesS p.op = false → m.s = 1) ∧ (usesTo p.op = false → m.dst = 7) ∧
  (usesIk p.op = false → m.ik = 3) ∧ (usesCh p.op = false → m.ch = 255) ∧ (usesIk p.op = true → m.ik &&& 2 = 2)

theorem commandRows_pinLegal : ∀ r ∈ commandRows, PinsLegal (fieldsOf r.pattern) (fieldsOf r.mask) := by
  unfold PinsLegal
  decide

theorem ik_lt_two_of_masked :
    ∀ {x m p : BitVec 2}, m &&& 2 = 2 → x &&& m = p → p.toNat < 2 → x.toNat < 2 := by
  decide

theorem legal_of_pinsLegal {f m p : Fields} (hpins : PinsLegal p m) (hmask : maskFields f m = p) :
    illegalFields f = false := by
  obtain ⟨hp, hop, h11, h14, h24, hsrc, hs, hdst, hik, hch, hkind⟩ := hpins
  obtain ⟨p0, p6, p11, p14, p24, psrc, ps, pdst, pik, pch, pkind⟩ := (illegalFields_eq_false_iff p).1 hp
  rw [illegalFields_eq_false_iff, eq_of_masked hop (congrArg Fields.op hmask)]
  exact ⟨p0, p6, (eq_of_masked h11 (congrArg Fields.z11 hmask)).trans p11,
    (eq_of_masked h14 (congrArg Fields.z14 hmask)).trans p14,
    (eq_of_masked h24 (congrArg Fields.z24 hmask)).trans p24,
    fun h => (eq_of_masked (hsrc h) (congrArg Fields.src hmask)).trans (psrc h),
    fun h => (eq_of_masked (hs h) (congrArg Fields.s hmask)).trans (ps h),
    fun h => (eq_of_masked (hdst h) (congrArg Fields.dst hmask)).trans (pdst h),
    fun h => (eq_of_masked (hik h) (congrArg Fields.ik hmask)).trans (pik h),
    fun h => (eq_of_masked (hch h) (congrArg Fields.ch hmask)).trans (pch h),
    fun h => ik_lt_two_of_masked (hkind h) (congrArg Fields.ik hmask) (pkind h)⟩

/-- No row before the last takes an illegal word. -/
theorem firstRow_of_illegal {w : Word} (h : illegalFields (fieldsOf w) = true) : firstRow w = some ⟨0, 0⟩ := by
  have hnone : commandRows.find? (rowTakes · w) = none := by
    rw [List.find?_eq_none]
    intro r hr htakes
    have hlegal := legal_of_pinsLegal (commandRows_pinLegal r hr) ((rowTakes_iff_maskFields r w).1 htakes)
    exact Bool.false_ne_true (hlegal.symm.trans h)
  rw [firstRow, show opcodeTable = commandRows ++ [⟨0, 0⟩] from rfl, List.find?_append, hnone]
  simp [rowTakes]

/-- The row does not tell the channel counts `c` and `c'` apart in words of operation `op`. -/
def BlindTo (r : Row) (op : BitVec 4) (c c' : Byte) : Prop :=
  (fieldsOf r.mask).ch = 0 ∨ ((fieldsOf r.mask).op = 15 ∧ (fieldsOf r.pattern).op ≠ op) ∨
    ((fieldsOf r.mask).ch = 255 ∧ (fieldsOf r.pattern).ch ≠ c ∧ (fieldsOf r.pattern).ch ≠ c')

theorem rowTakes_congr_of_blindTo {r : Row} {f : Fields} {c : Byte} (h : BlindTo r f.op f.ch c) :
    rowTakes r (assemble f) = rowTakes r (assemble { f with ch := c }) := by
  rw [Bool.eq_iff_iff, rowTakes_iff_maskFields, rowTakes_iff_maskFields, fieldsOf_assemble, fieldsOf_assemble]
  rcases h with hany | ⟨hmask, hop⟩ | ⟨hmask, hc, hc'⟩
  · simp only [maskFields, hany, BitVec.ofNat_eq_ofNat, BitVec.and_zero]
  · constructor <;> intro h <;> exact absurd (eq_of_masked hmask (congrArg Fields.op h)).symm hop
  · constructor <;> intro h
    · exact absurd (eq_of_masked hmask (congrArg Fields.ch h)).symm hc
    · exact absurd (eq_of_masked hmask (congrArg Fields.ch h)).symm hc'

theorem firstRow_congr_of_blindTo {f : Fields} {c : Byte} (h : ∀ r ∈ opcodeTable, BlindTo r f.op f.ch c) :
    firstRow (assemble f) = firstRow (assemble { f with ch := c }) :=
  List.find?_congr fun r hr => rowTakes_congr_of_blindTo (h r hr)

/-- The rows of DISP look at the channel counts 1 to 4 only. -/
theorem opcodeTable_disp_ch : ∀ r ∈ opcodeTable,
    (fieldsOf r.mask).ch = 0 ∨ ((fieldsOf r.mask).op = 15 ∧ (fieldsOf r.pattern).op ≠ opDisp) ∨
      ((fieldsOf r.mask).ch = 255 ∧ (fieldsOf r.pattern).ch ∈ ([1, 2, 3, 4] : List Byte)) := by
  decide

/-- The rows of PIPE look at no channel count. -/
theorem opcodeTable_pipe_ch : ∀ r ∈ opcodeTable,
    (fieldsOf r.mask).ch = 0 ∨ ((fieldsOf r.mask).op = 15 ∧ (fieldsOf r.pattern).op ≠ opPipe) := by
  decide

theorem firstRow_cvt : ∀ (a : Tag) (s : BitVec 1) (b : Tag),
    firstRow (assemble (cvtFields a s b)) = some (rowOf (decodeCvt a s b)) := by
  decide

theorem firstRow_disp_of_mem : ∀ ch ∈ ([0, 1, 2, 3, 4] : List Byte), ∀ b : Tag,
    firstRow (assemble (dispFields ch b)) = some (rowOf (decodeDisp ch b)) := by
  decide

theorem firstRow_disp (ch : Byte) (b : Tag) :
    firstRow (assemble (dispFields ch b)) = some (rowOf (decodeDisp ch b)) := by
  by_cases hch : ch ∈ ([1, 2, 3, 4] : List Byte)
  · exact firstRow_disp_of_mem ch (List.mem_cons_of_mem 0 hch) b
  · have hblind : ∀ r ∈ opcodeTable, BlindTo r opDisp ch 0 := by
      intro r hr
      rcases opcodeTable_disp_ch r hr with hany | hop | ⟨hmask, hmem⟩
      · exact .inl hany
      · exact .inr (.inl hop)
      · exact .inr (.inr ⟨hmask, ne_of_mem_of_not_mem hmem hch, ne_of_mem_of_not_mem hmem (by decide)⟩)
    have hrow : decodeDisp ch b = .dispAnyChOther b ch := by
      simp only [List.mem_cons, List.not_mem_nil, or_false, not_or] at hch
      obtain ⟨h1, h2, h3, h4⟩ := hch
      rw [decodeDisp, if_neg h1, if_neg h2, if_neg h3, if_neg h4]
    rw [hrow]
    exact (firstRow_congr_of_blindTo (f := dispFields ch b) hblind).trans (firstRow_disp_of_mem 0 (by decide) b)

theorem firstRow_resize (a : Tag) (k : InterpKind) :
    firstRow (assemble (resizeFields a k)) = some (rowOf (decodeResize a k)) := by
  cases k <;> revert a <;> decide

theorem firstRow_crop : ∀ a : Tag, firstRow (assemble (cropFields a)) = some (rowOf (decodeCrop a)) := by
  decide

theorem firstRow_pipe_zero (b : Tag) (k : InterpKind) :
    firstRow (assemble (pipeFields 0 b k)) = some (rowOf (decodePipe 0 b k)) := by
  cases k <;> revert b <;> decide

theorem rowOf_decodePipe (ch ch' : Byte) (b : Tag) (k : InterpKind) :
    rowOf (decodePipe ch b k) = rowOf (decodePipe ch' b k) := by
  cases k <;> rcases tag_cases b with rfl | rfl | rfl | rfl | rfl | rfl | rfl | rfl <;> rfl

theorem firstRow_pipe (ch : Byte) (b : Tag) (k : InterpKind) :
    firstRow (assemble (pipeFields ch b k)) = some (rowOf (decodePipe ch b k)) := by
  have hblind : ∀ r ∈ opcodeTable, BlindTo r opPipe ch 0 := fun r hr =>
    (opcodeTable_pipe_ch r hr).imp_right .inl
  rw [rowOf_decodePipe ch 0]
  exact (firstRow_congr_of_blindTo (f := pipeFields ch b k) hblind).trans (firstRow_pipe_zero b k)

/-- Settles O7: an illegal word falls through to the last row; in each family the rows are tried on the words whose
channel count they can tell from 0, and on the channel count 0. -/
theorem decodedRowIsTheFirstMatchingRow : Obligations.DecodedRowIsTheFirstMatchingRow := by
  unfold Obligations.DecodedRowIsTheFirstMatchingRow
  intro w
  rcases word_cases w with ⟨hillegal, hw⟩ | ⟨a, s, b, rfl⟩ | ⟨ch, b, rfl⟩ | ⟨a, k, rfl⟩ | ⟨a, rfl⟩ | ⟨ch, b, k, rfl⟩
  · rw [hw, firstRow_of_illegal hillegal, rowOf]
  · rw [decode_assemble_cvtFields, firstRow_cvt]
  · rw [decode_assemble_dispFields, firstRow_disp]
  · rw [decode_assemble_resizeFields, firstRow_resize]
  · rw [decode_assemble_cropFields, firstRow_crop]
  · rw [decode_assemble_pipeFields, firstRow_pipe]

/-- Settles O3: seven closed words, each decoded by computation. -/
theorem writtenOutWordsDecode : Obligations.WrittenOutWordsDecode := by
  unfold Obligations.WrittenOutWordsDecode
  decide

end Sys2Proof.Proofs
end

section
/-!
The proofs of the statements on every command at once (spec/10_state.md R23, R28, R33, R34, spec/20_memory.md R73,
spec/60_exceptions.md R264, R265): what the two commits leave, and which command makes which.
-/
namespace Sys2Proof.Proofs
open Sys2Proof.Machine Sys2Proof.Claim

/-! ## The two ends of a command -/

/-- A command that answers a next state has failed with an error kind, or it has committed the output of its plan on
the source image. -/
theorem exec_next_cases {i : Instr} {s t : State} (h : exec i s = .next t) :
    (∃ e, t = raiseError s e) ∨
    (∃ plan img, commandPlan i s.params s.ops = .ok plan ∧ readRange s.src 0 (srcLen s) = some img ∧
      fits s.params (plan.outW * plan.outH * plan.outCh) = true ∧ t = commitSuccess s plan (plan.bytes img) ∧
      Succeeds s t plan.diag plan.outW plan.outH plan.outCh plan.metadata) := by
  rcases exec_cases h with ⟨e, rfl, -⟩ | ⟨plan, img, hplan, hsound, hfit, hread, hlen, rfl⟩
  · exact .inl ⟨e, rfl⟩
  · exact .inr ⟨plan, img, hplan, hread, hfit, rfl,
      commitSuccess_succeeds s hsound.width hsound.height hsound.channels hlen⟩

/-- Settles O51: neither commit touches anything but the result registers and DST. -/
theorem commandsWriteOnlyResultsAndDst : Obligations.CommandsWriteOnlyResultsAndDst := by
  unfold Obligations.CommandsWriteOnlyResultsAndDst
  intro i s t h
  rcases exec_next_cases h with ⟨e, rfl⟩ | ⟨plan, img, -, -, -, -, hsucceeds⟩
  · exact (raiseError_fails s e).kept
  · exact hsucceeds.kept

/-- A source that does not read as an image has a byte that was never written. -/
theorem exists_unwritten_of_readRange_eq_none {s : State} (h : readRange s.src 0 (srcLen s) = none) :
    ∃ a, a < srcLen s ∧ readByte s.src a = none := by
  by_contra hall
  push Not at hall
  obtain ⟨img, himg, -⟩ := sourceImage fun a ha => Option.ne_none_iff_exists'.1 (hall a ha)
  exact Option.some_ne_none img (himg.symm.trans h)

/-- Settles O52: a plan's only read is that of the source image, and both outcomes of the checks end a command. -/
theorem commandsCompleteOnWrittenSource : Obligations.CommandsCompleteOnWrittenSource := by
  unfold Obligations.CommandsCompleteOnWrittenSource
  intro i s
  refine ⟨fun hwritten => ?_, fun e h => ?_, fun r => ?_⟩
  · cases hplan : commandPlan i s.params s.ops with
    | error e => exact ⟨_, exec_error hplan⟩
    | ok plan =>
      cases hfit : fits s.params (plan.outW * plan.outH * plan.outCh) with
      | true =>
        obtain ⟨img, hread, -⟩ := sourceImage hwritten
        exact ⟨_, exec_ok hplan hfit hread⟩
      | false => exact ⟨_, exec_tooLong hplan hfit⟩
  · rw [exec_eq_finish] at h
    exact exists_unwritten_of_readRange_eq_none (finish_fault h).1
  · rw [exec_eq_finish]
    exact finish_not_refused s _ r

/-- Settles O53: a failed command ends with the same error on any SRC, and a commit of an output has ERR = 0. -/
theorem failedCommandsReadNoSource : Obligations.FailedCommandsReadNoSource := by
  unfold Obligations.FailedCommandsReadNoSource
  intro i s t m h herr
  rcases exec_cases h with ⟨e, rfl, hany⟩ | ⟨plan, img, -, -, -, -, -, rfl⟩
  · exact hany m
  · exact absurd (statusErr_statusOfSuccess plan.diag) herr

/-- Settles O55: the five error words and the two success words, one by one. -/
theorem statusAfterEveryCommandIsLegal : Obligations.StatusAfterEveryCommandIsLegal := by
  unfold Obligations.StatusAfterEveryCommandIsLegal
  intro i s t h
  rcases exec_next_cases h with ⟨e, rfl⟩ | ⟨plan, img, -, -, -, rfl, -⟩
  · rw [raiseError_status]
    cases e <;> decide
  · rw [commitSuccess_status]
    cases plan.diag <;> decide

/-- Settles O56: the error arm clears the window, the success arm makes it the announced output's. -/
theorem commitLeavesAWindowOfTheOutputShape : Obligations.CommitLeavesAWindowOfTheOutputShape := by
  unfold Obligations.CommitLeavesAWindowOfTheOutputShape
  intro i s t h
  rcases exec_next_cases h with ⟨e, rfl⟩ | ⟨plan, img, -, -, -, ht, hsucceeds⟩
  · exact ⟨fun _ => ⟨rfl, rfl, rfl, rfl, rfl, fun _ => rfl⟩, rfl, fun a => by simp [readByte]⟩
  · have hok : statusErr t.res.status = 0 := by rw [ht, commitSuccess_status, statusErr_statusOfSuccess]
    obtain ⟨-, hw, hh, hch, hlen, -, hinside, houtside, -⟩ := hsucceeds
    rw [hw, hh, hch, hlen]
    refine ⟨fun herr => absurd hok herr, rfl, fun a => ⟨fun ⟨b, hb⟩ => ?_, hinside a⟩⟩
    by_contra hge
    rw [houtside a (Nat.le_of_not_lt hge)] at hb
    cases hb

/-- Every command that is not an illegal word has the plan of the family that the operation of its word names
(30_encoding.md R91). -/
theorem command_families (i : Instr) :
    (∃ w, i = .illegal w) ∨
    ((encode i).toNat % 16 = 1 ∧ ∃ f b t, ∀ p o, commandPlan i p o = cvtPlan p o f b t) ∨
    ((encode i).toNat % 16 = 2 ∧ ∃ ch t, ∀ p o, commandPlan i p o = dispPlan p o ch t) ∨
    ((encode i).toNat % 16 = 3 ∧ ∃ fmt kind, ∀ p o, commandPlan i p o = resizePlan p o fmt kind) ∨
    ((encode i).toNat % 16 = 4 ∧ ∃ fmt, ∀ p o, commandPlan i p o = cropPlan p o fmt) ∨
    ((encode i).toNat % 16 = 5 ∧ ∃ ch out kind, ∀ p o, commandPlan i p o = pipePlan p o ch out kind) := by
  cases i with
  | illegal w => exact .inl ⟨w, rfl⟩
  | cvtGray8Gray8 | cvtGray8Rgb565 | cvtGray8Rgb888 | cvtGray8Rgba8888 | cvtGray8Yuv888
  | cvtRgb565Gray8 | cvtRgb565Rgb565 | cvtRgb565Rgb888 | cvtRgb565Rgba8888 | cvtRgb565Yuv888
  | cvtRgb888Gray8 | cvtRgb888Rgb565 | cvtRgb888Rgb888 | cvtRgb888Rgba8888 | cvtRgb888Yuv888
  | cvtRgba8888Gray8 | cvtRgba8888Rgb565 | cvtRgba8888Rgb888 | cvtRgba8888Rgba8888 | cvtRgba8888Yuv888
  | cvtYuv888Gray8 | cvtYuv888Rgb565 | cvtYuv888Rgb888 | cvtYuv888Rgba8888 | cvtYuv888Yuv888
  | cvtBgr888Rgb565 | cvtBgr888Rgb888 | cvtS1Other | cvtTag =>
    refine .inr (.inl ⟨assemble_op _, ?_⟩)
    dsimp only [commandPlan]
    exact ⟨_, _, _, fun _ _ => rfl⟩
  | dispRgb888Ch1 | dispRgba8888Ch1 | dispRgb888Ch2 | dispRgba8888Ch2
  | dispRgb888Ch3 | dispRgba8888Ch3 | dispRgb888Ch4 | dispRgba8888Ch4
  | dispOtherCh1 | dispOtherCh2 | dispOtherCh3 | dispOtherCh4 | dispAnyChOther =>
    refine .inr (.inr (.inl ⟨assemble_op _, ?_⟩))
    dsimp only [commandPlan]
    exact ⟨_, _, fun _ _ => rfl⟩
  | resizeNnRgb888 | resizeBlRgb888 | resizeNnRgba8888 | resizeBlRgba8888 | resizeOther =>
    refine .inr (.inr (.inr (.inl ⟨assemble_op _, ?_⟩)))
    dsimp only [commandPlan]
    exact ⟨_, _, fun _ _ => rfl⟩
  | cropRgb888 | cropRgba8888 | cropOther =>
    refine .inr (.inr (.inr (.inr (.inl ⟨assemble_op _, ?_⟩))))
    dsimp only [commandPlan]
    exact ⟨_, fun _ _ => rfl⟩
  | pipeRgb565Nn | pipeRgb565Bl | pipeRgb888Nn | pipeRgb888Bl | pipeRgba8888Nn | pipeRgba8888Bl
  | pipeYuv888Nn | pipeYuv888Bl | pipeGray8Nn | pipeGray8Bl | pipeTag =>
    refine .inr (.inr (.inr (.inr (.inr ⟨assemble_op _, ?_⟩))))
    dsimp only [commandPlan]
    exact ⟨_, _, _, fun _ _ => rfl⟩

/-- Only a RESIZE or a CROP plans the diagnostic (43_geometry.md R206, R223). -/
theorem op_of_diagnosed_plan {i : Instr} {p : Params} {o : Operands} {plan : Plan}
    (h : commandPlan i p o = .ok plan) (hdiag : plan.diag = true) :
    (encode i).toNat % 16 = 3 ∨ (encode i).toNat % 16 = 4 := by
  rcases command_families i with ⟨w, rfl⟩ | ⟨-, f, b, t, hcvt⟩ | ⟨-, ch, t, hdisp⟩ | ⟨hop, -⟩ | ⟨hop, -⟩ |
    ⟨-, ch, out, kind, hpipe⟩
  · cases h
  · exact absurd ((cvtPlan_sound (hcvt p o ▸ h)).2.symm.trans hdiag) Bool.false_ne_true
  · exact absurd ((dispPlan_sound (hdisp p o ▸ h)).2.symm.trans hdiag) Bool.false_ne_true
  · exact .inl hop
  · exact .inr hop
  · exact absurd ((pipePlan_sound (hpipe p o ▸ h)).2.symm.trans hdiag) Bool.false_ne_true

/-- Settles O57: a diagnosed plan is the no-op on the source, and only RESIZE and CROP have one. -/
theorem diagnosticMeansTheSourceCameBack : Obligations.DiagnosticMeansTheSourceCameBack := by
  unfold Obligations.DiagnosticMeansTheSourceCameBack
  intro i s t h hdiag
  rcases exec_next_cases h with ⟨e, rfl⟩ | ⟨plan, img, hplan, hread, -, rfl, -⟩
  · rw [raiseError_status, statusDiag_statusOfError] at hdiag
    cases hdiag
  · rw [commitSuccess_status, statusDiag_statusOfSuccess] at hdiag
    obtain ⟨hw, hh, -, hid⟩ := (commandPlan_sound hplan).noOp hdiag
    obtain ⟨himg, hbytes⟩ := readRange_spec hread
    rw [commitSuccess_outW, commitSuccess_outH, commitSuccess_outLen, hw, hh, hid, id, himg]
    refine ⟨op_of_diagnosed_plan hplan hdiag, by simp, by simp, rfl, fun a ha => ?_⟩
    rw [readByte_commitSuccess, if_pos (himg ▸ ha), ← hbytes a ha, Nat.zero_add]

/-- Settles O50: an illegal word has no plan. -/
theorem illegalWordsEndWithError5 : Obligations.IllegalWordsEndWithError5 := by
  unfold Obligations.IllegalWordsEndWithError5
  intro w s
  exact endsWith_of_commandPlan_error (e := .illegalCommand) rfl

end Sys2Proof.Proofs
end

section
/-!
The proofs of the statements on one step and on the host's accesses (spec/10_state.md R24 to R37, spec/20_memory.md
R66, spec/30_encoding.md R101).
-/
namespace Sys2Proof.Proofs
open Sys2Proof.Machine Sys2Proof.Claim

/-! ## One step -/

theorem step_nil {s : State} (h : s.script = []) : step s = .next s := by
  rw [step, performNext, h]

/-- A write of CMD is the command it encodes (10_state.md R29). -/
theorem step_goWord {s : State} {w : Word} {rest : List HostAction} (h : s.script = goWord w :: rest) :
    step s = exec (decode w) { s with cmd := w, script := rest } :=
  step_cons h

/-- Settles O8: the step of a script whose head writes CMD, with the word itself and with the word's bits, and the
step of an empty script. -/
theorem stepRunsTheDecodedCommand : Obligations.StepRunsTheDecodedCommand := by
  unfold Obligations.StepRunsTheDecodedCommand
  refine ⟨fun s w rest h => step_goWord h, fun s w => ?_, fun s h => step_nil h⟩
  have hscript : (s.withFetchWord 32 w.toNat).script = goWord w :: s.script := by
    rw [State.withFetchWord, commandWord_toNat]
  exact step_goWord hscript

/-- Settles O2: the reset action sets every register and both memories to their reset values. -/
theorem hostResetClearsTheEngine : Obligations.HostResetClearsTheEngine := by
  unfold Obligations.HostResetClearsTheEngine
  intro s rest h
  refine ⟨_, step_cons h, fun r => ?_, fun _ => rfl, fun _ => rfl, rfl, rfl, rfl, rfl⟩
  cases r <;> rfl

/-! ## Registers (10_state.md R25) -/

/-- The word index of a register. -/
def regIndex : RegName → Nat
  | .cmd => 0 | .status => 1 | .srcW => 2 | .srcH => 3 | .srcLen => 4 | .argX => 5 | .argY => 6 | .argW => 7
  | .argH => 8 | .metaIn => 9 | .outW => 10 | .outH => 11 | .outCh => 12 | .outLen => 13 | .metaOut => 14

theorem regAt_eq_some_iff {index : Nat} {r : RegName} : regAt index = some r ↔ index = regIndex r := by
  constructor
  · intro h
    have hlt : index < 15 := by
      by_contra hge
      rw [regAt_none (Nat.le_of_not_lt hge)] at h
      cases h
    interval_cases index <;> cases h <;> rfl
  · rintro rfl
    cases r <;> rfl

/-- What each register reads after a host write to `r`: the value if it is `r` and `r` is an operand register, and
else what it read before. -/
theorem readReg_writeOperand (s : State) (v : Word) (r r' : RegName) :
    readReg { s with ops := writeOperand s.ops v r } r' =
      if regIndex r' = regIndex r ∧ 2 ≤ regIndex r ∧ regIndex r ≤ 9 then v.toNat else readReg s r' := by
  cases r <;> cases r' <;> rfl

/-- A host write of a register word other than CMD. -/
theorem perform_writeReg {index : Nat} {r : RegName} (hr : regAt index = some r) (h0 : index ≠ 0) (v : Word)
    (s : State) : perform (.writeReg index v) s = .next { s with ops := writeOperand s.ops v r } := by
  rw [regAt_eq_some_iff] at hr
  subst hr
  cases r with
  | cmd => exact absurd rfl h0
  | _ => rfl

/-- Settles O9: below index 15 the write is `writeOperand`, from there on there is no register. -/
theorem hostWritesOperandRegistersOnly : Obligations.HostWritesOperandRegistersOnly := by
  unfold Obligations.HostWritesOperandRegistersOnly
  intro s index v rest h h0
  cases hr : regAt index with
  | some r =>
    refine ⟨_, (step_cons h).trans (perform_writeReg hr h0 v _), fun j r' hr' => ?_, rfl, rfl, rfl, rfl, rfl, rfl⟩
    rw [regAt_eq_some_iff] at hr hr'
    rw [hr, hr']
    exact readReg_writeOperand { s with script := rest } v r r'
  | none =>
    have hnext : perform (.writeReg index v) { s with script := rest } = .next { s with script := rest } := by
      simp only [perform, hostWriteReg, hr]
    have hnot : ¬(2 ≤ index ∧ index ≤ 9) := by
      rintro ⟨-, hle⟩
      interval_cases index <;> cases hr
    refine ⟨_, (step_cons h).trans hnext, fun j r' _ => ?_, rfl, rfl, rfl, rfl, rfl, rfl⟩
    rw [if_neg fun hall => hnot hall.2]
    cases r' <;> rfl

/-- Settles O10: the map by computation; a read hands over `regValue`, which is 0 where there is no register. -/
theorem hostReadsRegistersAtTheirOffsets : Obligations.HostReadsRegistersAtTheirOffsets := by
  unfold Obligations.HostReadsRegistersAtTheirOffsets
  refine ⟨rfl, fun s index rest h => ⟨fun r hr => ?_, fun hge => ⟨regAt_none hge, ?_⟩⟩⟩
  · rw [step_cons h, perform, regValue, hr]
    cases r <;> rfl
  · rw [step_cons h, perform, regValue, regAt_none hge]
    rfl

/-! ## The memories (10_state.md R31, R32, 20_memory.md R66) -/

/-- Settles O11: a write below CAP is `writeByte`, a read below CAP is `readByte`. -/
theorem hostReachesSrcByteByByte : Obligations.HostReachesSrcByteByByte := by
  unfold Obligations.HostReachesSrcByteByByte
  constructor
  · intro s a b rest h
    refine ⟨hostWriteSrc a b { s with script := rest }, step_cons h, fun x => ?_, by simp⟩
    rw [hostWriteSrc_src]
    by_cases hin : inCap s.params a = true
    · simp only [hin, if_true, readByte_writeByte, and_true]
    · simp only [hin, and_false, if_false, Bool.false_eq_true]
  · intro s a rest h
    refine ⟨fun b hin hb => ?_, fun hout => ?_, fun hin hnone => ?_⟩
    · rw [step_cons h]
      simp only [perform, hostReadSrc, hin, hb, if_true, deliver]
    · rw [step_cons h]
      simp only [perform, hostReadSrc, hout, Bool.false_eq_true, if_false, deliver]
    · rw [step_cons h]
      simp only [perform, hostReadSrc, hin, hnone, if_true]

/-- Settles O12: a write is no action; a read takes the listed byte, or the next free value. -/
theorem hostOnlyReadsDst : Obligations.HostOnlyReadsDst := by
  unfold Obligations.HostOnlyReadsDst
  refine ⟨fun s a b rest h => step_cons h, fun s a rest h => ⟨fun b hin hb => ?_, fun hin hnone => ?_, fun hout => ?_⟩⟩
  · rw [step_cons h, perform, hostReadDst, if_pos hin, takeDst_listed a { s with script := rest } hb]
    rfl
  · rw [step_cons h, perform, hostReadDst, if_pos hin, takeDst_unlisted a { s with script := rest } hnone]
    exact ⟨_, rfl⟩
  · rw [step_cons h]
    simp only [perform, hostReadDst, hout, Bool.false_eq_true, if_false, deliver]

/-- `mv` from a sound window: the output bytes come to the front of SRC, and the output's length and dimensions to the
source's registers. -/
theorem hostMove_spec {s : State} (h : WindowSound s) (hlt : s.res.outLen < 2 ^ 32) :
    ∃ src, (∀ a, readByte src a = if a < s.res.outLen then readByte s.dst a else readByte s.src a) ∧
      hostMove s = .next { s with
        src := src
        ops := { s.ops with srcLen := BitVec.ofNat 32 s.res.outLen, srcW := s.res.outW, srcH := s.res.outH } } := by
  obtain ⟨hsrc, hframe⟩ := copyBytes_spec h (Nat.le_refl s.res.outLen)
  refine ⟨_, hsrc, ?_⟩
  rw [hostMove, if_pos hlt]
  dsimp only
  rw [hframe]

/-- Settles O13: the copy fills the front of SRC from a sound window, whose bytes fit CAP. -/
theorem moveMakesTheOutputTheNextSource : Obligations.MoveMakesTheOutputTheNextSource := by
  unfold Obligations.MoveMakesTheOutputTheNextSource
  intro s rest hinv h
  obtain ⟨hwindow, hshape, hfits, hempty⟩ := hinv.windowSound
  have hsound : WindowSound { s with script := rest } := ⟨hwindow, hshape, hfits, hempty⟩
  constructor
  · intro hlt
    obtain ⟨src, hsrc, hmove⟩ := hostMove_spec hsound hlt
    exact ⟨_, (step_cons h).trans hmove, hsrc, Nat.mod_eq_of_lt hlt, rfl, rfl, rfl, rfl, rfl, rfl, rfl, rfl, rfl, rfl,
      rfl, rfl, rfl, rfl⟩
  · intro hge
    rw [step_cons h, perform, hostMove, if_neg (Nat.not_lt.2 hge)]

/-! ## Several engines (20_memory.md R72) -/

/-- A fleet steps when the engine that is asked for does not exist, or when it steps. -/
theorem fleetStep_eq_next_iff {n : Nat} {f g : Fleet} :
    fleetStep n f = .next g ↔
      (f[n]? = none ∧ g = f) ∨ ∃ s t, f[n]? = some s ∧ step s = .next t ∧ g = f.set n t := by
  unfold fleetStep
  cases hs : f[n]? with
  | none => simp [eq_comm]
  | some s => cases ht : step s <;> simp [ht, eq_comm]

theorem getElem?_of_fleetStep {n k : Nat} {f g : Fleet} (h : fleetStep n f = .next g) (hne : k ≠ n) :
    g[k]? = f[k]? := by
  rcases fleetStep_eq_next_iff.1 h with ⟨-, rfl⟩ | ⟨s, t, -, -, rfl⟩
  · rfl
  · exact List.getElem?_set_ne hne.symm

/-- Settles O60: each of the two engines is the same before and after the other's step, and two changes of a list at
different places commute. -/
theorem enginesAreIndependent : Obligations.EnginesAreIndependent := by
  unfold Obligations.EnginesAreIndependent
  refine ⟨fun f g n k h hne => getElem?_of_fleetStep h hne, fun f g h n k hne hg hh => ?_⟩
  have hk : g[k]? = f[k]? := getElem?_of_fleetStep hg hne.symm
  rcases fleetStep_eq_next_iff.1 hh with ⟨hnone, rfl⟩ | ⟨s, t, hs, ht, rfl⟩
  · exact ⟨f, fleetStep_eq_next_iff.2 (.inl ⟨hk ▸ hnone, rfl⟩), hg⟩
  · have hfirst : fleetStep k f = .next (f.set k t) := fleetStep_eq_next_iff.2 (.inr ⟨s, t, hk ▸ hs, ht, rfl⟩)
    have hn : (f.set k t)[n]? = f[n]? := List.getElem?_set_ne hne.symm
    refine ⟨_, hfirst, fleetStep_eq_next_iff.2 ?_⟩
    rw [hn]
    rcases fleetStep_eq_next_iff.1 hg with ⟨hnone, rfl⟩ | ⟨s', t', hs', ht', rfl⟩
    · exact .inl ⟨hnone, rfl⟩
    · exact .inr ⟨s', t', hs', ht', List.set_comm _ _ hne⟩

end Sys2Proof.Proofs
end

section
/-!
The proofs of the statements on the invariant (spec/10_state.md R22, R28, R32, R34, R38): it holds after reset, and
each host access and each command keeps it.
-/
namespace Sys2Proof.Proofs
open Sys2Proof.Machine Sys2Proof.Claim

theorem fits_zero (p : Params) : fits p 0 = true := by
  unfold fits
  split <;> simp

/-- The invariant speaks of SRC, DST, the result registers and the parameters alone. -/
theorem inv_congr {s t : State} (h : Inv s) (hsrc : t.src = s.src) (hdst : t.dst = s.dst) (hres : t.res = s.res)
    (hparams : t.params = s.params) : Inv t := by
  obtain ⟨hwf, hin, hstatus, hwindow, hshape, hfits, hempty⟩ := h
  refine ⟨?_, ?_, ?_, ?_, ?_, ?_, ?_⟩
  · rwa [hsrc]
  · rwa [hsrc, hparams]
  · rwa [hres]
  · rwa [hdst, hres]
  · rwa [hres]
  · rwa [hres, hparams]
  · rwa [hres]

/-- SRC may change to any other memory that is canonical and within CAP. -/
theorem inv_of_src {s t : State} (h : Inv s) (hwf : t.src.wf)
    (hin : ∀ a b, readByte t.src a = some b → inCap s.params a = true) (hdst : t.dst = s.dst) (hres : t.res = s.res)
    (hparams : t.params = s.params) : Inv t := by
  obtain ⟨-, -, hstatus, hwindow⟩ := h
  have hbefore : Inv { s with src := t.src } := ⟨hwf, hin, hstatus, ⟨hwindow.1, hwindow.2, hwindow.3, hwindow.4⟩⟩
  exact inv_congr hbefore rfl hdst hres hparams

/-- A state whose memories are empty and whose result registers are those of reset. -/
theorem inv_of_reset {s : State} (hsrc : s.src = []) (hdst : s.dst = []) (hres : s.res = Results.reset) : Inv s where
  srcWf := hsrc ▸ List.Pairwise.nil
  srcInCap a b h := by
    rw [hsrc] at h
    cases h
  status := .inl (hres ▸ rfl)
  windowSound := by
    refine ⟨?_, ?_, ?_, ?_⟩
    · rw [hdst, hres]
      rfl
    · rw [hres]
      rfl
    · rw [hres]
      exact fits_zero _
    · rw [hres]
      exact fun _ => ⟨rfl, rfl, rfl, rfl, rfl⟩

/-- Settles O58: reset empties both memories and the result registers. -/
theorem invariantHoldsAtReset : Obligations.InvariantHoldsAtReset :=
  inv_of_reset rfl rfl rfl

/-! ## Commands keep the invariant -/

theorem raiseError_inv {s : State} (h : Inv s) (e : ErrKind) : Inv (raiseError s e) where
  srcWf := h.srcWf
  srcInCap := h.srcInCap
  status := .inr (.inl ⟨e, rfl⟩)
  windowSound := ⟨rfl, rfl, fits_zero _, fun _ => ⟨rfl, rfl, rfl, rfl, rfl⟩⟩

/-- The window after a commit is the committed output. -/
theorem commitSuccess_windowSound {s : State} {plan : Plan} {out : List Byte}
    (hsucceeds : Succeeds s (commitSuccess s plan out) plan.diag plan.outW plan.outH plan.outCh plan.metadata)
    (hfit : fits s.params (plan.outW * plan.outH * plan.outCh) = true) : WindowSound (commitSuccess s plan out) where
  window := by rw [commitSuccess_dst, memoryOfBytes_fst, commitSuccess_outLen, List.range_eq_range']
  shape := by rw [hsucceeds.outW, hsucceeds.outH, hsucceeds.outCh, hsucceeds.outLen]
  fitsCap := by
    rw [hsucceeds.outLen]
    exact hfit
  emptyUnlessOk := by
    rw [commitSuccess_status]
    cases plan.diag <;> exact fun hbad => absurd hbad (by decide)

theorem commitSuccess_inv {s : State} {plan : Plan} {out : List Byte} (h : Inv s)
    (hsucceeds : Succeeds s (commitSuccess s plan out) plan.diag plan.outW plan.outH plan.outCh plan.metadata)
    (hfit : fits s.params (plan.outW * plan.outH * plan.outCh) = true) : Inv (commitSuccess s plan out) where
  srcWf := h.srcWf
  srcInCap := h.srcInCap
  status := .inr (.inr ⟨plan.diag, rfl⟩)
  windowSound := commitSuccess_windowSound hsucceeds hfit

theorem exec_inv {i : Instr} {s t : State} (h : Inv s) (hnext : exec i s = .next t) : Inv t := by
  rcases exec_next_cases hnext with ⟨e, rfl⟩ | ⟨plan, img, -, -, hfit, rfl, hsucceeds⟩
  · exact raiseError_inv h e
  · exact commitSuccess_inv h hsucceeds hfit

/-! ## Host accesses keep the invariant -/

theorem hostWriteSrc_inv {s : State} (h : Inv s) (a : Nat) (b : Byte) : Inv (hostWriteSrc a b s) := by
  refine inv_of_src h (hostWriteSrc_src_wf h.srcWf a b) (fun x c hx => ?_) (by simp) (by simp) (by simp)
  rw [hostWriteSrc_src] at hx
  split at hx
  · next hin =>
    rw [readByte_writeByte] at hx
    split at hx
    · next hxa => rwa [hxa]
    · exact h.srcInCap x c hx
  · exact h.srcInCap x c hx

/-- `mv` copies a window that lies within CAP. -/
theorem hostMove_inv {s t : State} (h : Inv s) (hnext : hostMove s = .next t) : Inv t ∧ t.params = s.params := by
  obtain ⟨hsrc, hframe⟩ := copyBytes_spec h.windowSound (Nat.le_refl s.res.outLen)
  have hwf := copyBytes_src_wf s.res.outLen h.srcWf
  unfold hostMove at hnext
  split at hnext
  · rw [hframe] at hnext
    obtain rfl := Host.Outcome.next.inj hnext
    refine ⟨inv_of_src h hwf (fun a b hb => ?_) rfl rfl rfl, rfl⟩
    rw [hsrc a] at hb
    split at hb
    · next hlt => exact inCap_of_fits h.windowSound.fitsCap hlt
    · exact h.srcInCap a b hb
  · cases hnext

/-- One host access, a command among them, keeps the invariant and the parameters. -/
theorem perform_inv {a : HostAction} {s t : State} (h : Inv s) (hnext : perform a s = .next t) :
    Inv t ∧ t.params = s.params := by
  cases a with
  | writeReg index v =>
    by_cases h0 : index = 0
    · subst h0
      have hexec : exec (decode v) { s with cmd := v } = .next t := hnext
      exact ⟨exec_inv (s := { s with cmd := v }) (inv_congr h rfl rfl rfl rfl) hexec,
        (commandsWriteOnlyResultsAndDst _ _ _ hexec).params⟩
    · cases hr : regAt index with
      | some r =>
        obtain rfl := Host.Outcome.next.inj ((perform_writeReg hr h0 v s).symm.trans hnext)
        exact ⟨inv_congr h rfl rfl rfl rfl, rfl⟩
      | none =>
        simp only [perform, hostWriteReg, hr] at hnext
        obtain rfl := Host.Outcome.next.inj hnext
        exact ⟨h, rfl⟩
  | readReg index =>
    obtain rfl := Host.Outcome.next.inj hnext
    exact ⟨inv_congr h rfl rfl rfl rfl, rfl⟩
  | writeSrc a b =>
    obtain rfl := Host.Outcome.next.inj hnext
    exact ⟨hostWriteSrc_inv h a b, by simp⟩
  | readSrc a =>
    simp only [perform, hostReadSrc] at hnext
    split_ifs at hnext
    · split at hnext
      · obtain rfl := Host.Outcome.next.inj hnext
        exact ⟨inv_congr h rfl rfl rfl rfl, rfl⟩
      · cases hnext
    · obtain rfl := Host.Outcome.next.inj hnext
      exact ⟨inv_congr h rfl rfl rfl rfl, rfl⟩
  | writeDst a b =>
    obtain rfl := Host.Outcome.next.inj hnext
    exact ⟨h, rfl⟩
  | readDst a =>
    obtain rfl := Host.Outcome.next.inj hnext
    unfold hostReadDst
    split
    · exact ⟨inv_congr h (by simp) (by simp) (by simp) (by simp), by simp⟩
    · exact ⟨inv_congr h rfl rfl rfl rfl, rfl⟩
  | copyDstToSrc => exact hostMove_inv h hnext
  | reset =>
    obtain rfl := Host.Outcome.next.inj hnext
    exact ⟨inv_of_reset rfl rfl rfl, rfl⟩

/-- Settles O59: the idle step changes nothing, and every other step performs one host access. -/
theorem everyStepKeepsTheInvariant : Obligations.EveryStepKeepsTheInvariant := by
  unfold Obligations.EveryStepKeepsTheInvariant
  intro s t h hnext
  cases hscript : s.script with
  | nil =>
    obtain rfl := Host.Outcome.next.inj ((step_nil hscript).symm.trans hnext)
    exact ⟨h, rfl⟩
  | cons a rest =>
    rw [step_cons hscript] at hnext
    exact perform_inv (s := { s with script := rest }) (inv_congr h rfl rfl rfl rfl) hnext

end Sys2Proof.Proofs
end

section
/-!
The proofs of the statements on the Codec and the dispatcher (spec/40_codec.md R120 to R151, spec/42_dispatch.md R181,
R192): the rows that copy, the reversed byte order, the pairs without a path, the canonical pixels, and the laws of
the pixel functions.
-/
namespace Sys2Proof.Proofs
open Sys2Proof.Machine Sys2Proof.Claim

/-! ## Rows of CVT -/

/-- A conversion that copies every pixel copies every byte. -/
theorem copies_of_pixelCopy {i : Instr} {s : State} {f : ColorFormat} {b : Nat}
    (hplan : commandPlan i s.params s.ops = cvtPlan s.params s.ops (some f) false (some f))
    (hpath : cvtPath s.params.q8 (some f) false (some f) = some ⟨b, b, pixelCopy b⟩)
    (hready : Ready s b (srcW s * srcH s * b)) :
    ∃ t, exec i s = .next t ∧ Succeeds s t false (srcW s) (srcH s) b 0 ∧
      ∀ a, a < srcLen s → readByte t.dst a = some (srcByte s a) := by
  obtain ⟨t, hexec, hsucceeds, hpixels⟩ :=
    converts_along_path (some f) false (some f) hplan hpath hready (fun _ => rfl)
  refine ⟨t, hexec, hsucceeds, fun a ha => ?_⟩
  rw [hready.shaped.length] at ha
  obtain ⟨hp, hk, ha⟩ := div_mod_index ha
  obtain ⟨hlen, hholds⟩ := hpixels _ hp
  rw [← ha, hholds _ (hlen ▸ hk)]
  simp [pixelCopy, sourcePixel, List.getD_eq_getElem?_getD, hk]

/-- Settles O14: the path of a format to itself copies the pixel. -/
theorem sameFormatConversionsCopy : Obligations.SameFormatConversionsCopy := by
  unfold Obligations.SameFormatConversionsCopy
  intro row hrow s hready
  fin_cases hrow
  · exact copies_of_pixelCopy (f := .gray8) rfl rfl hready
  · exact copies_of_pixelCopy (f := .rgb565) rfl rfl hready
  · exact copies_of_pixelCopy (f := .rgb888) rfl rfl hready
  · exact copies_of_pixelCopy (f := .rgba8888) rfl rfl hready
  · exact copies_of_pixelCopy (f := .yuv888) rfl rfl hready

theorem pixelPackBgr_eq_packed (P : Pixel) : pixelPackBgr P = packed (P 2).toNat (P 1).toNat (P 0).toNat := by
  rw [pixelPackBgr, bytesOf565_eq, pack565_toNat, packed]

/-- Settles O16: with S = 1 the path is that of `pixelPackBgr`, which packs the reversed bytes (R126). -/
theorem packFromReversedBytes : Obligations.PackFromReversedBytes :=
  ⟨rfl, fun _ hready =>
    converts_along_path (some .rgb888) true (some .rgb565) rfl rfl hready fun _ => pixelPackBgr_eq_packed _⟩

/-- Settles O19: with S = 1 the path to Rgb888 is that of `pixelSwap` (R127). -/
theorem swapExchangesFirstAndThirdByte : Obligations.SwapExchangesFirstAndThirdByte :=
  ⟨rfl, fun _ hready => converts_along_path (some .rgb888) true (some .rgb888) rfl rfl hready fun _ => rfl⟩

/-! ## Pairs without a path (40_codec.md R137 to R149) -/

/-- R149: with S = 1 every pair but two is without a path. -/
theorem cvtPath_s1Other (q : Quantiser) {src dst : Tag} (h : WellFormed (.cvtS1Other src dst)) :
    cvtPath q (formatOfTag src) true (formatOfTag dst) = none := by
  rw [← Option.isNone_iff_eq_none]
  cases q <;> revert src dst <;> decide

/-- R148: a tag of 5 to 7 on either side leaves no path. -/
theorem cvtPath_unrecognizedTag (q : Quantiser) (b : Bool) {src dst : Tag} (h : WellFormed (.cvtTag src dst)) :
    cvtPath q (formatOfTag src) b (formatOfTag dst) = none := by
  rcases Bool.or_eq_true_iff.1 h with hsrc | hdst
  · rw [formatOfTag_eq_none hsrc]
    rfl
  · rw [formatOfTag_eq_none hdst]
    cases formatOfTag src <;> rfl

/-- A command with the checks of a conversion without a path ends with UnsupportedConversion, or with ResourceLimit. -/
theorem endsWith_of_no_path {i : Instr} {s : State} (f : Option ColorFormat) (b : Bool) (t : Option ColorFormat)
    (hplan : commandPlan i s.params s.ops = cvtPlan s.params s.ops f b t) (hpath : cvtPath s.params.q8 f b t = none) :
    EndsWith i s (if fits s.params (srcLen s) then 3 else 6) :=
  endsWith_of_error_if_source_fits (e := .unsupportedConversion) (hplan.trans (cvtPlan_unsupported hpath))

/-- Settles O24: the `U` cells of the matrix, the pairs with S = 1 and the tags that name no format. -/
theorem unsupportedPairsEndWithError3 : Obligations.UnsupportedPairsEndWithError3 := by
  unfold Obligations.UnsupportedPairsEndWithError3
  rintro i s (hcell | ⟨src, dst, rfl, hwf⟩ | ⟨src, dst, rfl, hwf⟩)
  · fin_cases hcell
    · exact endsWith_of_no_path (some .gray8) false (some .rgb565) rfl rfl
    · exact endsWith_of_no_path (some .gray8) false (some .yuv888) rfl rfl
    · exact endsWith_of_no_path (some .rgb565) false (some .gray8) rfl rfl
    · exact endsWith_of_no_path (some .rgb565) false (some .yuv888) rfl rfl
    · exact endsWith_of_no_path (some .rgb888) false (some .gray8) rfl rfl
    · exact endsWith_of_no_path (some .rgba8888) false (some .gray8) rfl rfl
    · exact endsWith_of_no_path (some .rgba8888) false (some .rgb565) rfl rfl
    · exact endsWith_of_no_path (some .rgba8888) false (some .yuv888) rfl rfl
    · exact endsWith_of_no_path (some .yuv888) false (some .gray8) rfl rfl
    · exact endsWith_of_no_path (some .yuv888) false (some .rgb565) rfl rfl
    · exact endsWith_of_no_path (some .yuv888) false (some .rgba8888) rfl rfl
  · exact endsWith_of_no_path _ true _ rfl (cvtPath_s1Other _ hwf)
  · exact endsWith_of_no_path _ false _ rfl (cvtPath_unrecognizedTag _ _ hwf)

/-! ## The dispatcher (42_dispatch.md R181, R192) -/

/-- Settles O31: both commands have the same plan, and a command is its plan finished. -/
theorem dispatchEqualsConversion : Obligations.DispatchEqualsConversion := by
  unfold Obligations.DispatchEqualsConversion
  intro row hrow s
  rw [exec_eq_finish, exec_eq_finish, dispatchRow_plan hrow]

/-- The channel counts that have a source format, with it (42_dispatch.md R181). -/
theorem formatOfChannels_cases {ch : Byte} {f : ColorFormat} (h : formatOfChannels ch = some f) :
    (ch = 1 ∧ f = .gray8) ∨ (ch = 2 ∧ f = .rgb565) ∨ (ch = 3 ∧ f = .rgb888) ∨ (ch = 4 ∧ f = .rgba8888) := by
  obtain ⟨h1, h4⟩ := formatOfChannels_range h
  have hch : ch = 1 ∨ ch = 2 ∨ ch = 3 ∨ ch = 4 := by bv_omega
  rcases hch with rfl | rfl | rfl | rfl <;> cases h <;> simp

theorem canonical_cases {c : ColorFormat} (h : isCanonical (some c) = true) : c = .rgb888 ∨ c = .rgba8888 := by
  cases c <;> simp [isCanonical] at h ⊢

/-- R181, R241: the path of a channel count's format to a canonical format makes the canonical pixel. -/
theorem canonicalPixel_of_path {q : Quantiser} {ch : Byte} {f c : ColorFormat} {path : Path}
    (hch : formatOfChannels ch = some f) (hc : isCanonical (some c) = true)
    (hpath : cvtPath q (some f) false (some c) = some path) (s : State) (p : Nat) :
    path.pixel (sourcePixel s ch.toNat p) = canonicalPixel s ch.toNat (c = .rgba8888) p := by
  rcases formatOfChannels_cases hch with ⟨rfl, rfl⟩ | ⟨rfl, rfl⟩ | ⟨rfl, rfl⟩ | ⟨rfl, rfl⟩ <;>
    rcases canonical_cases hc with rfl | rfl <;> cases hpath
  · rfl
  · rfl
  · exact pixelUnpack_eq_unpacked _
  · exact congrArg (· ++ [255]) (pixelUnpack_eq_unpacked _)
  · rfl
  · rfl
  · rfl
  · rfl

/-- A dispatch row is the dispatcher at its channel count and its canonical target. -/
theorem dispatchRow_dispPlan {row : Instr × Nat × Bool × Instr} (h : row ∈ dispatchRows) :
    ∃ ch f c, formatOfChannels ch = some f ∧ isCanonical (some c) = true ∧
      (∀ p o, commandPlan row.1 p o = dispPlan p o ch (some c)) ∧ row.2.1 = ch.toNat ∧
      row.2.2.1 = decide (c = .rgba8888) ∧ (if row.2.2.1 then 4 else 3) = bpp c := by
  fin_cases h
  · exact ⟨1, _, .rgb888, rfl, rfl, fun _ _ => rfl, rfl, rfl, rfl⟩
  · exact ⟨1, _, .rgba8888, rfl, rfl, fun _ _ => rfl, rfl, rfl, rfl⟩
  · exact ⟨2, _, .rgb888, rfl, rfl, fun _ _ => rfl, rfl, rfl, rfl⟩
  · exact ⟨2, _, .rgba8888, rfl, rfl, fun _ _ => rfl, rfl, rfl, rfl⟩
  · exact ⟨3, _, .rgb888, rfl, rfl, fun _ _ => rfl, rfl, rfl, rfl⟩
  · exact ⟨3, _, .rgba8888, rfl, rfl, fun _ _ => rfl, rfl, rfl, rfl⟩
  · exact ⟨4, _, .rgb888, rfl, rfl, fun _ _ => rfl, rfl, rfl, rfl⟩
  · exact ⟨4, _, .rgba8888, rfl, rfl, fun _ _ => rfl, rfl, rfl, rfl⟩

/-- Settles O29: a dispatch converts along the path to its canonical target, which makes the canonical pixels. -/
theorem dispatchesProduceTheCanonicalPixels : Obligations.DispatchesProduceTheCanonicalPixels := by
  unfold Obligations.DispatchesProduceTheCanonicalPixels
  intro row hrow s hready
  obtain ⟨ch, f, c, hch, hc, hplan, hcount, halpha, hbytes⟩ := dispatchRow_dispPlan hrow
  obtain ⟨path, hpath⟩ := stage1_exists s.params.q8 hch (some c)
  rw [some_canonicalOf_of_isCanonical hc] at hpath
  obtain ⟨hsrcBpp, hdstBpp⟩ := cvtPath_bpp hpath
  rw [formatOfChannels_bpp hch] at hsrcBpp
  rw [hbytes, ← hdstBpp, hcount, ← hsrcBpp] at hready
  rw [hbytes, ← hdstBpp, hcount, halpha]
  refine converts_along_path (some f) false (some c) ((hplan _ _).trans (dispPlan_eq_cvtPlan hch hc _ _)) hpath hready
    fun p => ?_
  rw [hsrcBpp]
  exact canonicalPixel_of_path hch hc hpath s p

/-! ## Laws of pack and unpack (40_codec.md R150) -/

/-- Unpack after pack, channel by channel, as numbers. -/
theorem unpack565_pack565_toNat (r g b : Byte) :
    (unpack565 (pack565 r g b)).1.toNat = r.toNat / 8 * 8 ∧ (unpack565 (pack565 r g b)).2.1.toNat = g.toNat / 4 * 4 ∧
      (unpack565 (pack565 r g b)).2.2.toNat = b.toNat / 8 * 8 := by
  obtain ⟨hr, hg, hb⟩ := unpack565_toNat (pack565 r g b)
  rw [pack565_toNat] at hr hg hb
  omega

/-- Packing looks at the upper bits only, so packing what was unpacked packs the same word. -/
theorem pack565_unpack565 (w : BitVec 16) : pack565 (unpack565 w).1 (unpack565 w).2.1 (unpack565 w).2.2 = w := by
  obtain ⟨hr, hg, hb⟩ := unpack565_toNat w
  apply BitVec.eq_of_toNat_eq
  rw [pack565_toNat, hr, hg, hb]
  omega

/-- Settles O25: division and multiplication by 8, 4 and 8; the second round trip packs the unpacked word again. -/
theorem packUnpackLaws : Obligations.PackUnpackLaws := by
  unfold Obligations.PackUnpackLaws
  refine ⟨fun r g b => ⟨(unpack565 (pack565 r g b)).1, (unpack565 (pack565 r g b)).2.1, (unpack565 (pack565 r g b)).2.2,
    rfl, ?_⟩, by decide, fun r g b r' g' b' h => ?_, pack565_unpack565⟩
  · obtain ⟨hr, hg, hb⟩ := unpack565_pack565_toNat r g b
    rw [hr, hg, hb]
    omega
  · have hpack := pack565_unpack565 (pack565 r g b)
    rw [h] at hpack
    rw [hpack, h]

/-! ## Laws of the pixelwise conversions (40_codec.md R127, R129, R131, R151) -/

/-- Two conversions are the same when they make the same of every pixel. -/
theorem mapPixels_congr {b b' n : Nat} {f f' : Pixel → List Byte} {img img' : List Byte}
    (h : ∀ p, p < n → f (pixelAt img b p) = f' (pixelAt img' b' p)) : mapPixels b f n img = mapPixels b' f' n img' :=
  List.flatMap_congr fun p hp => h p (List.mem_range.1 hp)

/-- A conversion along a path of what `g` made is the conversion by the composed pixel function. -/
theorem mapPixels_comp {q : Quantiser} {f t : Option ColorFormat} {s : Bool} {path : Path} {g : Pixel → List Byte}
    (hpath : cvtPath q f s t = some path) (hg : ∀ P, (g P).length = path.srcBpp) (b n : Nat) (img : List Byte) :
    mapPixels path.srcBpp path.pixel n (mapPixels b g n img) =
      mapPixels b (fun P => path.pixel fun k => (g P).getD k 0) n img :=
  mapPixels_congr fun _ hp => path_local hpath fun _ hk => pixelAt_mapPixels hg b n img hp hk

section ConversionLaws
variable (n : Nat) (buf : List Byte)

/-- R151: packing the swapped pixels is packing from the bytes B, G, R. -/
theorem pack_swap : mapPixels 3 pixelPack n (mapPixels 3 pixelSwap n buf) = mapPixels 3 pixelPackBgr n buf :=
  mapPixels_comp (q := .trunc) (f := some .rgb888) (s := false) (t := some .rgb565) rfl pixelSwap_length 3 n buf

/-- R127: the swap is its own inverse. -/
theorem swap_swap (hlen : buf.length = n * 3) : mapPixels 3 pixelSwap n (mapPixels 3 pixelSwap n buf) = buf :=
  (mapPixels_comp (q := .trunc) (f := some .rgb888) (s := true) (t := some .rgb888) rfl pixelSwap_length 3 n
    buf).trans (mapPixels_copy hlen)

/-- R129: dropping an added alpha is the identity. -/
theorem dropAlpha_addAlpha (hlen : buf.length = n * 3) :
    mapPixels 4 pixelDropAlpha n (mapPixels 3 pixelAddAlpha n buf) = buf :=
  (mapPixels_comp (q := .trunc) (f := some .rgba8888) (s := false) (t := some .rgb888) rfl pixelAddAlpha_length 3 n
    buf).trans (mapPixels_copy hlen)

/-- R129: adding a dropped alpha makes every pixel opaque. -/
theorem addAlpha_dropAlpha :
    mapPixels 3 pixelAddAlpha n (mapPixels 4 pixelDropAlpha n buf) = mapPixels 4 pixelAddAlpha n buf :=
  mapPixels_comp (q := .trunc) (f := some .rgb888) (s := false) (t := some .rgba8888) rfl pixelDropAlpha_length 4 n buf

/-- R131: replicate with alpha is replicate, then add alpha. -/
theorem addAlpha_replicate :
    mapPixels 3 pixelAddAlpha n (mapPixels 1 pixelReplicate n buf) = mapPixels 1 pixelReplicateAlpha n buf :=
  mapPixels_comp (q := .trunc) (f := some .rgb888) (s := false) (t := some .rgba8888) rfl pixelReplicate_length 1 n buf

/-- Every fourth byte of an opaque image is 255, the others are the image's. -/
theorem opaque_getD {a : Nat} (ha : a < n * 4) :
    (mapPixels 4 pixelAddAlpha n buf).getD a 0 = if a % 4 = 3 then 255 else buf.getD a 0 := by
  obtain ⟨hp, hk, hindex⟩ := div_mod_index ha
  have hbyte := mapPixels_getD pixelAddAlpha_length 4 buf hp hk
  rw [hindex] at hbyte
  rw [hbyte]
  have hcases : a % 4 = 0 ∨ a % 4 = 1 ∨ a % 4 = 2 ∨ a % 4 = 3 := by omega
  rcases hcases with h | h | h | h <;> rw [h] at hindex ⊢
  · exact congrArg (buf.getD · 0) hindex
  · exact congrArg (buf.getD · 0) hindex
  · exact congrArg (buf.getD · 0) hindex
  · rfl

end ConversionLaws

/-- Settles O26: each law is one of pixel functions, through `mapPixels_comp`. -/
theorem conversionLaws : Obligations.ConversionLaws := by
  unfold Obligations.ConversionLaws
  refine ⟨fun n buf hlen => ⟨pack_swap n buf, swap_swap n buf hlen, dropAlpha_addAlpha n buf hlen⟩,
    fun n buf _ a ha => ?_, fun n buf _ => (addAlpha_replicate n buf).symm⟩
  rw [addAlpha_dropAlpha]
  exact opaque_getD n buf ha

end Sys2Proof.Proofs
end

section
/-!
The proofs of the statements on the exact YUV values and the reference quantisers (spec/41_yuv.md R160 to R170).
-/
namespace Sys2Proof.Proofs
open Sys2Proof.Machine Sys2Proof.Claim

/-! ## The reference quantisers (41_yuv.md R166, R167) -/

theorem clampByte_of_neg {n : Int} (h : n < 0) : clampByte n = 0 := by
  have hzero : n.toNat = 0 := Int.toNat_of_nonpos (Int.le_of_lt h)
  rw [clampByte, hzero]
  rfl

theorem clampByte_of_nonneg {n : Int} (h : 0 ≤ n) : clampByte n = BitVec.ofInt 8 (min 255 n) := by
  obtain ⟨k, rfl⟩ := Int.eq_ofNat_of_zero_le h
  have hmin : min 255 (k : Int) = ((min 255 k : Nat) : Int) := by simp
  rw [clampByte, Int.toNat_natCast, hmin, BitVec.ofInt_natCast]

theorem clampByte_toNat (y : Byte) : clampByte y.toNat = y := by
  have hle : min 255 y.toNat = y.toNat := by omega
  rw [clampByte, Int.toNat_natCast, hle, BitVec.ofNat_toNat, BitVec.setWidth_eq]

/-- One less than a byte, saturated at 0. -/
theorem clampByte_toNat_sub_one (y : Byte) : clampByte (y.toNat - 1) = byte (y.toNat - 1) := by
  have hle : min 255 ((y.toNat : Int) - 1).toNat = y.toNat - 1 := by omega
  rw [clampByte, hle, byte]

theorem q8Trunc_of_floor {q : Rat} (n : Int) (hle : n ≤ q) (hlt : q < n + 1) : q8Trunc q = clampByte n :=
  congrArg clampByte (Int.floor_eq_iff.2 ⟨hle, hlt⟩)

theorem q8Round_of_floor {q : Rat} (n : Int) (hle : n ≤ q + 1 / 2) (hlt : q + 1 / 2 < n + 1) :
    q8Round q = clampByte n :=
  congrArg clampByte (Int.floor_eq_iff.2 ⟨hle, hlt⟩)

/-- Saturated floor division. -/
theorem clampByte_floor_div (x : Int) {d : Nat} (hd : 0 < d) :
    clampByte ((x : Rat) / d).floor = if x < 0 then 0 else BitVec.ofInt 8 (min 255 (x / d)) := by
  have hfloor : ((x : Rat) / d).floor = x / d := Rat.floor_intCast_div_natCast x d
  have hpos : (0 : Int) < d := by exact_mod_cast hd
  rw [hfloor]
  split_ifs with hneg
  · exact clampByte_of_neg (Int.ediv_neg_of_neg_of_pos hneg hpos)
  · exact clampByte_of_nonneg (Int.ediv_nonneg (Int.not_lt.1 hneg) (Int.le_of_lt hpos))

/-- Settles O28: the coefficients over their common denominator; half up is the floor of `(2x + d) / 2d`. -/
theorem yuvIntegerForm : Obligations.YuvIntegerForm := by
  unfold Obligations.YuvIntegerForm
  refine ⟨fun r g b => ?_, fun y u v => ?_, fun x d hd => ⟨clampByte_floor_div x hd, ?_⟩⟩
  · rw [yuvExactY, yuvExactU, yuvExactV]
    push_cast
    refine ⟨by ring, by ring, by ring⟩
  · rw [rgbExactR, rgbExactG, rgbExactB]
    push_cast
    refine ⟨by ring, by ring, by ring⟩
  · have hd0 : (d : Rat) ≠ 0 := by exact_mod_cast hd.ne'
    have hhalf : (x : Rat) / d + 1 / 2 = ((2 * x + d : Int) : Rat) / (2 * d : Nat) := by
      push_cast
      field_simp
    have hround := clampByte_floor_div (2 * x + d) (d := 2 * d) (by omega)
    rw [q8Round, hhalf, hround]
    rfl

/-! ## Ranges and grey (41_yuv.md R168) -/

theorem ratOfByte_range (b : Byte) : 0 ≤ ratOfByte b ∧ ratOfByte b ≤ 255 := by
  have hlt : b.toNat ≤ 255 := by omega
  rw [ratOfByte]
  exact ⟨by positivity, by exact_mod_cast hlt⟩

/-- Inverse grey: `+11/10^7`, `−4/10^8` and `−3/10^6` off. -/
theorem inverse_grey (y : Rat) : rgbExactR y 128 128 = y + 11 / 10 ^ 7 ∧ rgbExactG y 128 128 = y - 4 / 10 ^ 8 ∧
    rgbExactB y 128 128 = y - 3 / 10 ^ 6 := by
  rw [rgbExactR, rgbExactG, rgbExactB]
  refine ⟨by ring, by ring, by ring⟩

/-- A value less than half off a byte rounds to it. -/
theorem q8Round_near {q : Rat} {y : Byte} (hlow : -(1 / 2) ≤ q - ratOfByte y) (hhigh : q - ratOfByte y < 1 / 2) :
    q8Round q = y := by
  rw [ratOfByte] at hlow hhigh
  rw [q8Round_of_floor y.toNat (by push_cast; linarith) (by push_cast; linarith), clampByte_toNat]

/-- A value less than one above a byte truncates to it. -/
theorem q8Trunc_above {q : Rat} {y : Byte} (hlow : 0 ≤ q - ratOfByte y) (hhigh : q - ratOfByte y < 1) :
    q8Trunc q = y := by
  rw [ratOfByte] at hlow hhigh
  rw [q8Trunc_of_floor y.toNat (by push_cast; linarith) (by push_cast; linarith), clampByte_toNat]

/-- A value less than one below a byte truncates to one less. -/
theorem q8Trunc_below {q : Rat} {y : Byte} (hlow : -1 ≤ q - ratOfByte y) (hhigh : q - ratOfByte y < 0) :
    q8Trunc q = byte (y.toNat - 1) := by
  rw [ratOfByte] at hlow hhigh
  rw [q8Trunc_of_floor (y.toNat - 1) (by push_cast; linarith) (by push_cast; linarith), clampByte_toNat_sub_one]

theorem yuvExact_range (r g b : Byte) :
    let y := yuvExactY (ratOfByte r) (ratOfByte g) (ratOfByte b)
    let u := yuvExactU (ratOfByte r) (ratOfByte g) (ratOfByte b)
    let v := yuvExactV (ratOfByte r) (ratOfByte g) (ratOfByte b)
    0 ≤ y ∧ y ≤ 255 ∧ 1 / 2 ≤ u ∧ u ≤ 511 / 2 ∧ 1 / 2 ≤ v ∧ v ≤ 511 / 2 := by
  obtain ⟨hr0, hr1⟩ := ratOfByte_range r
  obtain ⟨hg0, hg1⟩ := ratOfByte_range g
  obtain ⟨hb0, hb1⟩ := ratOfByte_range b
  dsimp only [yuvExactY, yuvExactU, yuvExactV]
  refine ⟨?_, ?_, ?_, ?_, ?_, ?_⟩ <;> linarith

theorem rgbExact_range (y u v : Byte) :
    let r := rgbExactR (ratOfByte y) (ratOfByte u) (ratOfByte v)
    let g := rgbExactG (ratOfByte y) (ratOfByte u) (ratOfByte v)
    let b := rgbExactB (ratOfByte y) (ratOfByte u) (ratOfByte v)
    r ≥ -(17945659591 / 10 ^ 8) ∧ r ≤ 43305460769 / 10 ^ 8 ∧
    g ≥ -(13440043863 / 10 ^ 8) ∧ g ≤ 39045870972 / 10 ^ 8 ∧
    b ≥ -(22681830444 / 10 ^ 8) ∧ b ≤ 48004628046 / 10 ^ 8 := by
  obtain ⟨hy0, hy1⟩ := ratOfByte_range y
  obtain ⟨hu0, hu1⟩ := ratOfByte_range u
  obtain ⟨hv0, hv1⟩ := ratOfByte_range v
  dsimp only [rgbExactR, rgbExactG, rgbExactB]
  refine ⟨?_, ?_, ?_, ?_, ?_, ?_⟩ <;> linarith

/-- Settles O27: the ranges are linear in the three bytes; grey is one multiple of the row sums of each matrix. -/
theorem yuvExactRangesAndGrey : Obligations.YuvExactRangesAndGrey := by
  unfold Obligations.YuvExactRangesAndGrey
  refine ⟨yuvExact_range, by norm_num [yuvExactU], by norm_num [yuvExactU], by norm_num [yuvExactV],
    by norm_num [yuvExactV], ?_, fun n => ?_, inverse_grey, fun y => ?_, rgbExact_range⟩
  · rw [q8Round_of_floor 256 (by norm_num) (by norm_num)]
    rfl
  · rw [yuvExactY, yuvExactU, yuvExactV]
    refine ⟨by ring, by ring, by ring⟩
  · obtain ⟨hr, hg, hb⟩ := inverse_grey (ratOfByte y)
    rw [hr, hg, hb]
    exact ⟨q8Round_near (by linarith) (by linarith), q8Round_near (by linarith) (by linarith),
      q8Round_near (by linarith) (by linarith), q8Trunc_above (by linarith) (by linarith),
      q8Trunc_below (by linarith) (by linarith), q8Trunc_below (by linarith) (by linarith)⟩

end Sys2Proof.Proofs
end

section
/-!
The proofs of the statements on RESIZE and CROP that a reference `Resample`, the prologue and the laws of the family
make (spec/43_geometry.md R200, R207, R210, R211, R226, R227).
-/
namespace Sys2Proof.Proofs
open Sys2Proof.Machine Sys2Proof.Claim

/-! ## The target dimensions (43_geometry.md R207 steps 8 and 9) -/

/-- Settles O36: dimensions that are not 0 but beyond a limit fail at R207 step 8. -/
theorem resizeBeyondTheLimitsEndsWithError6 : Obligations.ResizeBeyondTheLimitsEndsWithError6 := by
  unfold Obligations.ResizeBeyondTheLimitsEndsWithError6
  intro row hrow s hshape hne d hd1 hd2 hbeyond
  obtain ⟨fmt, hplan, hpass⟩ := resizeRow_plan hrow hshape
  have hscaled : resizePlan s.params s.ops fmt row.2.1 = .error .resourceLimit :=
    (resizePlan_scaled hpass hne).trans ((if_neg (not_or.2 ⟨hd1, hd2⟩)).trans (if_pos hbeyond))
  exact endsWith_of_commandPlan_error (hplan.trans hscaled)

/-- A resize whose `Resample` builds its image by `f` delivers that image, byte by byte. -/
theorem resize_delivers_built_image {row : Instr × InterpKind × Nat} (hrow : row ∈ resizeRows) {s : State}
    {d : Nat × Nat} (hd : d = targetDims (srcW s) (srcH s) (argW s) (argH s)) (hne : argW s ≠ 0 ∨ argH s ≠ 0)
    (hready : Ready s row.2.2 (d.1 * d.2 * row.2.2)) (hd1 : d.1 ≠ 0) (hd2 : d.2 ≠ 0) (hlim1 : d.1 < 2 ^ 32)
    (hlim2 : d.2 < 2 ^ 32) {f : List Byte → Nat → Nat → Nat → Byte}
    (hbuild : ∀ img, resample s.params row.2.1 row.2.2 img (srcW s) (srcH s) d.1 d.2 =
      buildImage d.1 d.2 row.2.2 (f img)) :
    ∃ t img, (∀ a, a < srcLen s → byteAt img a = srcByte s a) ∧ exec row.1 s = .next t ∧
      Succeeds s t false d.1 d.2 row.2.2 0 ∧
      ∀ r c k, r < d.2 → c < d.1 → k < row.2.2 →
        readByte t.dst ((r * d.1 + c) * row.2.2 + k) = some (f img r c k) := by
  subst hd
  obtain ⟨hshape, hwritten, hfit⟩ := hready
  obtain ⟨fmt, hplan, hpass⟩ := resizeRow_plan hrow hshape
  have hscaled := (resizePlan_scaled (kind := row.2.1) hpass hne).trans
    ((if_neg (not_or.2 ⟨hd1, hd2⟩)).trans (if_neg (by simpa [hfit] using ⟨hlim1, hlim2⟩)))
  obtain ⟨img, hbytes, hexec, hsucceeds⟩ := exec_succeeds (hplan.trans hscaled) hwritten hfit
  refine ⟨_, img, hbytes, hexec, hsucceeds, fun r c k hr hc hk => ?_⟩
  dsimp only [resampledPlan]
  rw [hbuild]
  exact readByte_commitSuccess_buildImage s _ _ hr hc hk

section Reference
variable {p : Params} (href : p.resample = .reference) (b : Nat) (img : List Byte) (ow oh nw nh : Nat)
include href

theorem resample_nearest_of_reference :
    resample p .nearest b img ow oh nw nh = buildImage nw nh b (nearestByte img b ow oh nw nh) := by
  simp only [resample, href]

theorem resample_bilinear_of_reference :
    resample p .bilinear b img ow oh nw nh = buildImage nw nh b (bilinearByte p.q8 img b ow oh nw nh) := by
  simp only [resample, href]

end Reference

theorem mul_div_lt {i n o : Nat} (hi : i < n) (ho : o ≠ 0) : i * o / n < o :=
  Nat.div_lt_of_lt_mul (Nat.mul_lt_mul_of_pos_right hi (Nat.pos_of_ne_zero ho))

/-- Settles O37: the reference Nearest builds its image of source bytes, each inside the source (R210). -/
theorem referenceNearestCopiesOnePixel : Obligations.ReferenceNearestCopiesOnePixel := by
  unfold Obligations.ReferenceNearestCopiesOnePixel
  intro row hrow s href hne d hready hd1 hd2 hlim1 hlim2
  have hmem : (row.1, InterpKind.nearest, row.2) ∈ resizeRows := by
    fin_cases hrow <;> simp [resizeRows]
  obtain ⟨t, img, hbytes, hexec, hsucceeds, hdst⟩ := resize_delivers_built_image hmem rfl hne hready hd1 hd2 hlim1 hlim2
    (f := fun img => nearestByte img row.2 (srcW s) (srcH s) d.1 d.2) fun _ =>
      resample_nearest_of_reference href _ _ _ _ _ _
  refine ⟨t, hexec, hsucceeds, fun r c k hr hc hk => ?_⟩
  rw [hdst r c k hr hc hk, nearestByte, imageByte_eq_srcByte hready.shaped hbytes
    (mul_div_lt hr hready.shaped.height) (mul_div_lt hc hready.shaped.width) hk]

/-! ## Reference Bilinear (43_geometry.md R211) -/

/-- The weighted mean of the four pixels around a coordinate of an image of `ow` by `oh` pixels `px`. -/
def weightedMean (oh ow : Nat) (fy fx : Rat) (px : Nat → Nat → Rat) : Rat :=
  let y0 := coordFloor fy
  let x0 := coordFloor fx
  let y1 := min (y0 + 1) (oh - 1)
  let x1 := min (x0 + 1) (ow - 1)
  let top := (1 - (fx - x0)) * px y0 x0 + (fx - x0) * px y0 x1
  let bot := (1 - (fx - x0)) * px y1 x0 + (fx - x0) * px y1 x1
  (1 - (fy - y0)) * top + (fy - y0) * bot

theorem bilinearExact_eq_weightedMean (img : List Byte) (b ow oh nw nh r c k : Nat) :
    bilinearExact img b ow oh nw nh r c k = weightedMean oh ow (centreCoord oh nh r) (centreCoord ow nw c)
      fun y x => ratOfByte (imageByte img ow b y x k) := rfl

theorem bilinearValue_eq_weightedMean (s : State) (b ow oh nw nh r c k : Nat) :
    bilinearValue s b ow oh nw nh r c k = weightedMean oh ow (centreCoord oh nh r) (centreCoord ow nw c)
      fun y x => (srcNat s ((y * ow + x) * b + k) : Rat) := rfl

/-- A coordinate is clamped to the image. -/
theorem coordFloor_centreCoord_lt {o : Nat} (ho : o ≠ 0) (n i : Nat) : coordFloor (centreCoord o n i) < o := by
  have hle : centreCoord o n i ≤ ((o - 1 : Int) : Rat) := by
    rw [centreCoord]
    push_cast
    exact min_le_left _ _
  have hfloor : (centreCoord o n i).floor ≤ (o : Int) - 1 := (Int.floor_mono hle).trans_eq (Int.floor_intCast _)
  rw [coordFloor]
  omega

/-- The mean looks at pixels of the image only. -/
theorem weightedMean_congr {oh ow : Nat} {fy fx : Rat} {px px' : Nat → Nat → Rat} (hy : coordFloor fy < oh)
    (hx : coordFloor fx < ow) (h : ∀ y x, y < oh → x < ow → px y x = px' y x) :
    weightedMean oh ow fy fx px = weightedMean oh ow fy fx px' := by
  have hy1 : min (coordFloor fy + 1) (oh - 1) < oh := by omega
  have hx1 : min (coordFloor fx + 1) (ow - 1) < ow := by omega
  simp only [weightedMean, h _ _ hy hx, h _ _ hy hx1, h _ _ hy1 hx, h _ _ hy1 hx1]

/-- Settles O38: the reference Bilinear quantises the mean of four bytes of the image, which are SRC's (R211). -/
theorem referenceBilinearQuantisesTheMean : Obligations.ReferenceBilinearQuantisesTheMean := by
  unfold Obligations.ReferenceBilinearQuantisesTheMean
  intro row hrow s href hne d hready hd1 hd2 hlim1 hlim2
  have hmem : (row.1, InterpKind.bilinear, row.2) ∈ resizeRows := by
    fin_cases hrow <;> simp [resizeRows]
  obtain ⟨t, img, hbytes, hexec, hsucceeds, hdst⟩ := resize_delivers_built_image hmem rfl hne hready hd1 hd2 hlim1 hlim2
    (f := fun img => bilinearByte s.params.q8 img row.2 (srcW s) (srcH s) d.1 d.2) fun _ =>
      resample_bilinear_of_reference href _ _ _ _ _ _
  refine ⟨t, hexec, hsucceeds, fun r c k hr hc hk => ?_⟩
  have hmean : bilinearExact img row.2 (srcW s) (srcH s) d.1 d.2 r c k =
      bilinearValue s row.2 (srcW s) (srcH s) d.1 d.2 r c k := by
    rw [bilinearExact_eq_weightedMean, bilinearValue_eq_weightedMean]
    refine weightedMean_congr (coordFloor_centreCoord_lt hready.shaped.height _ _)
      (coordFloor_centreCoord_lt hready.shaped.width _ _) fun y x hy hx => ?_
    rw [imageByte_eq_srcByte hready.shaped hbytes hy hx hk]
    rfl
  rw [hdst r c k hr hc hk, bilinearByte, hmean]

/-! ## The prologue (43_geometry.md R200, R226) -/

section Prologue
variable {p : Params} {o : Operands}

theorem prologue_source_too_long (fmt : Option ColorFormat) (hlong : fits p o.srcLen.toNat = false) :
    prologue p o fmt = .error .resourceLimit := by
  simp [prologue, hlong]

theorem prologue_not_canonical {fmt : Option ColorFormat} (h : isCanonical fmt = false) :
    prologue p o fmt = .error (if fits p o.srcLen.toNat then .unsupportedConversion else .resourceLimit) := by
  cases hfit : fits p o.srcLen.toNat with
  | true => cases fmt <;> simp [prologue, hfit, h]
  | false => exact prologue_source_too_long fmt hfit

theorem prologue_misshapen {f : ColorFormat} (hc : isCanonical (some f) = true) (hfit : fits p o.srcLen.toNat = true)
    (h : o.srcW.toNat = 0 ∨ o.srcH.toNat = 0 ∨ o.srcLen.toNat ≠ o.srcW.toNat * o.srcH.toNat * bpp f) :
    prologue p o (some f) = .error .shapeMismatch := by
  simp only [prologue, hfit, hc, Bool.not_true, Bool.false_eq_true, if_false]
  split_ifs with hzero hlen
  · rfl
  · rfl
  · tauto

theorem resizePlan_of_prologue_error {fmt : Option ColorFormat} {e : ErrKind} (h : prologue p o fmt = .error e)
    (kind : InterpKind) : resizePlan p o fmt kind = .error e := by
  rw [resizePlan, h]

theorem cropPlan_of_prologue_error {fmt : Option ColorFormat} {e : ErrKind} (h : prologue p o fmt = .error e) :
    cropPlan p o fmt = .error e := by
  rw [cropPlan, h]

end Prologue

/-- Every RESIZE and CROP row on a canonical image starts with the prologue of its format. -/
theorem geometryRow_prologue {row : Instr × Nat} (hrow : row ∈ resizeRows.map (fun x => (x.1, x.2.2)) ++ cropRows) :
    ∃ f, isCanonical (some f) = true ∧ bpp f = row.2 ∧
      ∀ p o e, prologue p o (some f) = .error e → commandPlan row.1 p o = .error e := by
  fin_cases hrow
  · exact ⟨.rgb888, rfl, rfl, fun _ _ _ h => resizePlan_of_prologue_error h _⟩
  · exact ⟨.rgb888, rfl, rfl, fun _ _ _ h => resizePlan_of_prologue_error h _⟩
  · exact ⟨.rgba8888, rfl, rfl, fun _ _ _ h => resizePlan_of_prologue_error h _⟩
  · exact ⟨.rgba8888, rfl, rfl, fun _ _ _ h => resizePlan_of_prologue_error h _⟩
  · exact ⟨.rgb888, rfl, rfl, fun _ _ _ h => cropPlan_of_prologue_error h⟩
  · exact ⟨.rgba8888, rfl, rfl, fun _ _ _ h => cropPlan_of_prologue_error h⟩

/-- Settles O39: the prologue's errors are the command's. -/
theorem geometryPrologueErrors : Obligations.GeometryPrologueErrors := by
  unfold Obligations.GeometryPrologueErrors
  refine fun s => ⟨fun row hrow => ?_, fun fmt kind h2 h3 => ?_⟩
  · obtain ⟨f, hc, hbpp, herror⟩ := geometryRow_prologue hrow
    refine ⟨fun hlong => ?_, fun hfit hshape => ?_⟩
    · exact endsWith_of_commandPlan_error (herror _ _ _ (prologue_source_too_long _ hlong))
    · rw [← hbpp] at hshape
      exact endsWith_of_commandPlan_error (herror _ _ _ (prologue_misshapen hc hfit hshape))
  · have hfmt : isCanonical (formatOfTag fmt) = false :=
      Bool.eq_false_iff.2 fun h => ((isCanonical_formatOfTag_iff fmt).1 h).elim h2 h3
    have herror := prologue_not_canonical (p := s.params) (o := s.ops) hfmt
    exact ⟨endsWith_of_error_if_source_fits (e := .unsupportedConversion) (resizePlan_of_prologue_error herror kind),
      endsWith_of_error_if_source_fits (e := .unsupportedConversion) (cropPlan_of_prologue_error herror)⟩

/-! ## Laws of the family (43_geometry.md R227) -/

/-- A RESIZE that passes its checks keeps the bytes per pixel and has no zero dimension. -/
theorem resizePlan_ok_bounds {p : Params} {o : Operands} {fmt : Option ColorFormat} {kind : InterpKind} {plan : Plan}
    (h : resizePlan p o fmt kind = .ok plan) :
    o.srcLen.toNat = o.srcW.toNat * o.srcH.toNat * plan.outCh ∧ plan.outW ≠ 0 ∧ plan.outH ≠ 0 := by
  cases hpro : prologue p o fmt with
  | error e => cases (resizePlan_of_prologue_error hpro kind).symm.trans h
  | ok shape =>
    obtain ⟨iw, ih, b⟩ := shape
    obtain ⟨rfl, rfl, -, -, hw, hh, hlen⟩ := prologue_ok hpro
    by_cases hne : o.argW.toNat ≠ 0 ∨ o.argH.toNat ≠ 0
    · rw [resizePlan_scaled hpro hne] at h
      dsimp only at h
      split_ifs at h with hzero hlimit <;> obtain rfl := Except.ok.inj h
      · exact ⟨hlen, hw, hh⟩
      · exact ⟨hlen, fun h1 => hzero (.inl h1), fun h2 => hzero (.inr h2)⟩
    · push Not at hne
      rw [resizePlan_identity hpro hne.1 hne.2] at h
      obtain rfl := Except.ok.inj h
      exact ⟨hlen, hw, hh⟩

/-- A CROP that passes its checks keeps the bytes per pixel, has no zero dimension and is no larger than its source. -/
theorem cropPlan_ok_bounds {p : Params} {o : Operands} {fmt : Option ColorFormat} {plan : Plan}
    (h : cropPlan p o fmt = .ok plan) :
    o.srcLen.toNat = o.srcW.toNat * o.srcH.toNat * plan.outCh ∧ plan.outW ≠ 0 ∧ plan.outH ≠ 0 ∧
      plan.outW ≤ o.srcW.toNat ∧ plan.outH ≤ o.srcH.toNat := by
  cases hpro : prologue p o fmt with
  | error e => cases (cropPlan_of_prologue_error hpro).symm.trans h
  | ok shape =>
    obtain ⟨iw, ih, b⟩ := shape
    obtain ⟨rfl, rfl, -, -, hw, hh, hlen⟩ := prologue_ok hpro
    rw [cropPlan_spec hpro] at h
    split_ifs at h with hout <;> obtain rfl := Except.ok.inj h
    · exact ⟨hlen, hw, hh, Nat.le_refl _, Nat.le_refl _⟩
    · dsimp only [rectanglePlan]
      omega

/-- Settles O42: a command of operation 3 or 4 that succeeds has committed the plan of a RESIZE or a CROP. -/
theorem geometryKeepsFormatAndBounds : Obligations.GeometryKeepsFormatAndBounds := by
  unfold Obligations.GeometryKeepsFormatAndBounds
  intro i s t hnext hstatus op hop
  rcases exec_next_cases hnext with ⟨e, rfl⟩ | ⟨plan, img, hplan, -, -, -, hsucceeds⟩
  · exact absurd ((statusErr_statusOfError e).symm.trans hstatus) (errCode_ne_zero e)
  · rw [hsucceeds.outW, hsucceeds.outH, hsucceeds.outCh]
    rcases command_families i with ⟨w, rfl⟩ | ⟨h1, -⟩ | ⟨h2, -⟩ | ⟨h3, fmt, kind, hresize⟩ | ⟨h4, fmt, hcrop⟩ | ⟨h5, -⟩
    · cases hplan
    · omega
    · omega
    · obtain ⟨hlen, hw, hh⟩ := resizePlan_ok_bounds (hresize _ _ ▸ hplan)
      exact ⟨hlen, Nat.one_le_iff_ne_zero.2 hw, Nat.one_le_iff_ne_zero.2 hh, fun h4 => by omega⟩
    · obtain ⟨hlen, hw, hh, hle⟩ := cropPlan_ok_bounds (hcrop _ _ ▸ hplan)
      exact ⟨hlen, Nat.one_le_iff_ne_zero.2 hw, Nat.one_le_iff_ne_zero.2 hh, fun _ => hle⟩
    · omega

/-- Pixel `(r, c)` of a cropped image is pixel `(cy + r, cx + c)` of the image (43_geometry.md R222). -/
theorem pixelAt_cropBytes {iw b cx cy w h r c k : Nat} (img : List Byte) (hr : r < h) (hc : c < w) (hk : k < b) :
    pixelAt (cropBytes iw b cx cy w h img) b (r * w + c) k = pixelAt img b ((cy + r) * iw + (cx + c)) k :=
  buildImage_getD hr hc hk

/-- Settles O43: both images have, at each place of the rectangle, the pixel that the path makes of one and the same
source pixel. -/
theorem cropCommutesWithConversion : Obligations.CropCommutesWithConversion := by
  unfold Obligations.CropCommutesWithConversion
  intro q f t b path hpath _ _ iw ih cx cy w h img _ hx hy
  have hpixel := (cvtPath_sound hpath).length
  refine mapPixels_ext hpixel (buildImage_length w h _ _) fun p k hp hk => ?_
  obtain ⟨hr, hc, hindex⟩ := div_mod_index (Nat.mul_comm w h ▸ hp)
  have hinside : (cy + p / w) * iw + (cx + p % w) < iw * ih := Nat.mul_comm ih iw ▸ index_lt (by omega) (by omega)
  rw [← hindex]
  calc (path.pixel (pixelAt (cropBytes iw path.srcBpp cx cy w h img) path.srcBpp (p / w * w + p % w))).getD k 0
      = (path.pixel (pixelAt img path.srcBpp ((cy + p / w) * iw + (cx + p % w)))).getD k 0 :=
        congrArg (·.getD k 0) (path_local hpath fun _ hk' => pixelAt_cropBytes img hr hc hk')
    _ = pixelAt (mapPixels path.srcBpp path.pixel (iw * ih) img) path.dstBpp ((cy + p / w) * iw + (cx + p % w)) k :=
        (pixelAt_mapPixels hpixel path.srcBpp (iw * ih) img hinside hk).symm
    _ = (cropBytes iw path.dstBpp cx cy w h (mapPixels path.srcBpp path.pixel (iw * ih) img)).getD
          ((p / w * w + p % w) * path.dstBpp + k) 0 :=
        (pixelAt_cropBytes _ hr hc hk).symm

end Sys2Proof.Proofs
end

section
/-!
The proofs of the statements on PIPE (spec/44_pipeline.md R240 to R247): its checks in order, the canonical image of
stage 1 and the repacked pixels of stage 3.
-/
namespace Sys2Proof.Proofs
open Sys2Proof.Machine Sys2Proof.Claim

/-! ## The checks in order (44_pipeline.md R240) -/

/-- The dimensions after stage 2 (44_pipeline.md R243). -/
def stage2Width (o : Operands) : Nat :=
  if o.argW.toNat ≠ 0 ∧ o.argH.toNat ≠ 0 then o.argW.toNat else o.srcW.toNat
def stage2Height (o : Operands) : Nat :=
  if o.argW.toNat ≠ 0 ∧ o.argH.toNat ≠ 0 then o.argH.toNat else o.srcH.toNat

/-- What a pipeline through the canonical format `c` delivers (44_pipeline.md R245). -/
def pipelinePlan (p : Params) (o : Operands) (kind : InterpKind) (c : ColorFormat) (stage1 stage3 : Path) : Plan where
  diag := false
  outW := stage2Width o
  outH := stage2Height o
  outCh := stage3.dstBpp
  metadata := o.metaIn
  bytes img :=
    mapPixels (bpp c) stage3.pixel (stage2Width o * stage2Height o)
      (pipeStage2 p kind (bpp c) o.srcW.toNat o.srcH.toNat o.argW.toNat o.argH.toNat
        (mapPixels stage1.srcBpp stage1.pixel (o.srcW.toNat * o.srcH.toNat) img))

section PipeChecks
variable {p : Params} {o : Operands} {ch : Byte} {out : Option ColorFormat} {kind : InterpKind}

theorem pipePlan_source_too_long (hlong : fits p o.srcLen.toNat = false) :
    pipePlan p o ch out kind = .error .resourceLimit := by
  simp [pipePlan, hlong]

theorem pipePlan_unsupportedChannelCount (hfit : fits p o.srcLen.toNat = true) (hch : formatOfChannels ch = none) :
    pipePlan p o ch out kind = .error .unsupportedChannelCount := by
  simp [pipePlan, hfit, hch]

/-- All that the checks of PIPE answer for a channel count that has a format: its stage 1 always has a path (R241). -/
theorem pipePlan_spec {f : ColorFormat} {stage1 : Path} (hch : formatOfChannels ch = some f)
    (h1 : cvtPath p.q8 (some f) false (some (canonicalOf out)) = some stage1) :
    pipePlan p o ch out kind =
      if fits p o.srcLen.toNat = false then .error .resourceLimit
      else if ch = 1 ∧ out = some .rgb565 then .error .unsupportedConversion
      else if o.srcW.toNat = 0 ∨ o.srcH.toNat = 0 ∨ o.srcLen.toNat ≠ o.srcW.toNat * o.srcH.toNat * ch.toNat then
        .error .shapeMismatch
      else if fits p (o.srcW.toNat * o.srcH.toNat * bpp (canonicalOf out)) = false then .error .resourceLimit
      else if o.argW.toNat ≠ 0 ∧ o.argH.toNat ≠ 0 ∧
        fits p (o.argW.toNat * o.argH.toNat * bpp (canonicalOf out)) = false then .error .resourceLimit
      else (cvtPath p.q8 (some (canonicalOf out)) false out).elim (.error .unsupportedConversion) fun stage3 =>
        .ok (pipelinePlan p o kind (canonicalOf out) stage1 stage3) := by
  simp only [pipePlan, hch, h1, ite_or, Bool.not_eq_true', and_assoc]
  cases cvtPath p.q8 (some (canonicalOf out)) false out <;> rfl

end PipeChecks

/-- The channel counts 1 to 4 have a format (42_dispatch.md R181). -/
theorem exists_formatOfChannels {ch : Byte} (h1 : 1 ≤ ch.toNat) (h4 : ch.toNat ≤ 4) :
    ∃ f, formatOfChannels ch = some f := by
  have hch : ch = 1 ∨ ch = 2 ∨ ch = 3 ∨ ch = 4 := by bv_omega
  rcases hch with rfl | rfl | rfl | rfl <;> exact ⟨_, rfl⟩

theorem formatOfChannels_eq_none_of_lt {ch : Byte} (h : ch = 0 ∨ 4 < ch.toNat) : formatOfChannels ch = none :=
  formatOfChannels_eq_none (by simpa [badChannelCount, Nat.succ_le_iff] using h)

theorem bpp_canonicalOf (out : ColorFormat) : bpp (canonicalOf (some out)) = canonicalBpp out := by
  cases out <;> rfl

/-- The outputs whose stage 3 has a path, with the row's bytes per pixel (44_pipeline.md R244). -/
theorem pipeRow_pipePlan {ch : Byte} {row : Instr × InterpKind × ColorFormat × Nat} (hrow : row ∈ pipeRowsOf ch) :
    (∀ p o, commandPlan row.1 p o = pipePlan p o ch (some row.2.2.1) row.2.1) ∧ row.2.2.2 = bpp row.2.2.1 ∧
      row.2.2.1 ≠ .gray8 := by
  fin_cases hrow <;> exact ⟨fun _ _ => rfl, rfl, nofun⟩

theorem not_misshapen_of_shaped {s : State} {b : Nat} (h : Shaped s b) :
    ¬(srcW s = 0 ∨ srcH s = 0 ∨ srcLen s ≠ srcW s * srcH s * b) := by
  obtain ⟨-, hw, hh, hlen⟩ := h
  tauto

/-- Settles O46: each check of R240 steps 1 to 8 ends the command before SRC is read. -/
theorem pipeFailuresInStageOrder : Obligations.PipeFailuresInStageOrder := by
  unfold Obligations.PipeFailuresInStageOrder
  intro ch s row hrow b
  obtain ⟨hplan, -, -⟩ := pipeRow_pipePlan hrow
  have hb : bpp (canonicalOf (some row.2.2.1)) = b := bpp_canonicalOf _
  have hends : ∀ {e}, pipePlan s.params s.ops ch (some row.2.2.1) row.2.1 = .error e →
      EndsWith row.1 s (errCode e).toNat := fun h => endsWith_of_commandPlan_error ((hplan _ _).trans h)
  refine ⟨fun hlong => hends (pipePlan_source_too_long hlong), fun hfit => ⟨fun hbad => ?_, fun hno => ?_, ?_⟩⟩
  · exact hends (pipePlan_unsupportedChannelCount hfit (formatOfChannels_eq_none_of_lt hbad))
  · obtain ⟨path, h1⟩ := stage1_exists s.params.q8 (ch := ch) (f := .gray8) (hno.1 ▸ rfl) (some row.2.2.1)
    refine hends (e := .unsupportedConversion) ((pipePlan_spec (hno.1 ▸ rfl) h1).trans ?_)
    rw [if_neg (by simp [hfit]), if_pos ⟨hno.1, congrArg some hno.2⟩]
  · intro hch1 hch4 hyes
    obtain ⟨f, hch⟩ := exists_formatOfChannels hch1 hch4
    obtain ⟨path, h1⟩ := stage1_exists s.params.q8 hch (some row.2.2.1)
    have hspec := pipePlan_spec (o := s.ops) (kind := row.2.1) hch h1
    rw [if_neg (by simp [hfit]), if_neg (by simpa using hyes), hb] at hspec
    refine ⟨fun hshape => hends (hspec.trans (if_pos hshape)), fun hshape hlong => ?_, fun hshape hw hh hlong => ?_⟩
    · rw [if_neg (not_misshapen_of_shaped hshape), if_pos hlong] at hspec
      exact hends hspec
    · rw [if_neg (not_misshapen_of_shaped hshape)] at hspec
      by_cases hcanon : fits s.params (srcW s * srcH s * b) = false
      · exact hends (hspec.trans (if_pos hcanon))
      · exact hends (hspec.trans ((if_neg hcanon).trans (if_pos ⟨hw, hh, hlong⟩)))

/-- A pipeline through Rgb888 whose output has no path fails at stage 3, after the checks of the other stages. -/
theorem endsWith_of_no_repack_path {i : Instr} {s : State} {ch : Byte} {out : Option ColorFormat} {kind : InterpKind}
    (hplan : commandPlan i s.params s.ops = pipePlan s.params s.ops ch out kind) (hc : canonicalOf out = .rgb888)
    (hout : out ≠ some .rgb565) (hnone : cvtPath s.params.q8 (some .rgb888) false out = none) :
    EndsWith i s
      (if fits s.params (srcLen s) = false then 6
      else if ch = 0 ∨ 4 < ch.toNat then 2
      else if srcW s = 0 ∨ srcH s = 0 ∨ srcLen s ≠ srcW s * srcH s * ch.toNat then 1
      else if fits s.params (srcW s * srcH s * 3) = false then 6
      else if argW s ≠ 0 ∧ argH s ≠ 0 ∧ fits s.params (argW s * argH s * 3) = false then 6
      else 3) := by
  have hends : ∀ {e}, pipePlan s.params s.ops ch out kind = .error e → EndsWith i s (errCode e).toNat :=
    fun h => endsWith_of_commandPlan_error (hplan.trans h)
  by_cases hlong : fits s.params (srcLen s) = false
  · rw [if_pos hlong]
    exact hends (pipePlan_source_too_long hlong)
  rw [if_neg hlong]
  by_cases hbad : ch = 0 ∨ 4 < ch.toNat
  · rw [if_pos hbad]
    exact hends (pipePlan_unsupportedChannelCount (by simpa using hlong) (formatOfChannels_eq_none_of_lt hbad))
  rw [if_neg hbad]
  obtain ⟨f, hch⟩ := exists_formatOfChannels (ch := ch) (by bv_omega) (by omega)
  obtain ⟨path, h1⟩ := stage1_exists s.params.q8 hch out
  have hspec := pipePlan_spec (o := s.ops) (kind := kind) hch h1
  rw [if_neg hlong, if_neg fun h => hout h.2, hc, hnone, Option.elim_none, bpp] at hspec
  by_cases hshape : srcW s = 0 ∨ srcH s = 0 ∨ srcLen s ≠ srcW s * srcH s * ch.toNat
  · rw [if_pos hshape]
    exact hends (hspec.trans (if_pos hshape))
  rw [if_neg hshape] at hspec ⊢
  by_cases hcanon : fits s.params (srcW s * srcH s * 3) = false
  · rw [if_pos hcanon]
    exact hends (hspec.trans (if_pos hcanon))
  rw [if_neg hcanon] at hspec ⊢
  by_cases hscaled : argW s ≠ 0 ∧ argH s ≠ 0 ∧ fits s.params (argW s * argH s * 3) = false
  · rw [if_pos hscaled]
    exact hends (hspec.trans (if_pos hscaled))
  rw [if_neg hscaled] at hspec ⊢
  exact hends hspec

/-- Settles O47: Gray8 and the tags 5 to 7 are repacked from Rgb888, from which they have no path. -/
theorem pipeWithoutRepackPathFailsAtStage3 : Obligations.PipeWithoutRepackPathFailsAtStage3 := by
  unfold Obligations.PipeWithoutRepackPathFailsAtStage3
  intro ch out kind s hout i hi
  have hnone : formatOfTag out = none := formatOfTag_eq_none (by simpa [unrecognizedTag] using hout)
  fin_cases hi
  · exact endsWith_of_no_repack_path (out := some .gray8) (kind := .nearest) rfl rfl nofun rfl
  · exact endsWith_of_no_repack_path (out := some .gray8) (kind := .bilinear) rfl rfl nofun rfl
  · refine endsWith_of_no_repack_path (out := formatOfTag out) (kind := kind) rfl ?_ ?_ ?_ <;> rw [hnone]
    · rfl
    · nofun
    · rfl

/-! ## The pixels of an image -/

theorem pixelBytes_length {img : List Byte} {b p n : Nat} (hlen : img.length = n * b) (hp : p < n) :
    (pixelBytes img b p).length = b := by
  have hle : (p + 1) * b ≤ n * b := Nat.mul_le_mul_right b hp
  rw [pixelBytes, List.length_take, List.length_drop, hlen]
  rw [Nat.succ_mul] at hle
  omega

/-- Byte `k` of pixel `p`. -/
theorem pixelBytes_getD (img : List Byte) {b k : Nat} (p : Nat) (hk : k < b) :
    (pixelBytes img b p).getD k 0 = pixelAt img b p k := by
  simp [pixelBytes, pixelAt, byteAt, List.getD_eq_getElem?_getD, hk]

/-- Pixel `p` of a converted image is what the pixel function makes of pixel `p`. -/
theorem pixelBytes_mapPixels {f : Pixel → List Byte} {c : Nat} (hf : ∀ P, (f P).length = c) (b : Nat) {n p : Nat}
    (img : List Byte) (hp : p < n) : pixelBytes (mapPixels b f n img) c p = f (pixelAt img b p) := by
  have hlen : (pixelBytes (mapPixels b f n img) c p).length = c := pixelBytes_length (mapPixels_length hf b n img) hp
  refine eq_of_getD_eq (hlen.trans (hf _).symm) fun k hk => ?_
  rw [pixelBytes_getD _ p (hlen ▸ hk)]
  exact pixelAt_mapPixels hf b n img hp (hlen ▸ hk)

/-! ## Stage 1 and stage 3 (44_pipeline.md R241, R244) -/

theorem isCanonical_canonicalOf (out : Option ColorFormat) : isCanonical (some (canonicalOf out)) = true := by
  unfold canonicalOf
  split <;> rfl

theorem decide_canonicalOf (out : ColorFormat) :
    decide (canonicalOf (some out) = .rgba8888) = decide (out = .rgba8888) := by
  cases out <;> rfl

/-- R244: the path of stage 3 repacks a canonical pixel. -/
theorem repacked_of_path {q : Quantiser} {out : ColorFormat} {path : Path} {px : List Byte}
    (hpath : cvtPath q (some (canonicalOf (some out))) false (some out) = some path)
    (hlen : px.length = bpp (canonicalOf (some out))) : path.pixel (fun k => px.getD k 0) = repacked q out px := by
  cases out <;> cases hpath
  · exact pixelPack_eq_packed fun k => px.getD k 0
  · obtain ⟨a, b, c, rfl⟩ := List.length_eq_three.1 hlen
    rfl
  · obtain ⟨a, b, c, d, rfl⟩ := List.length_eq_four.1 hlen
    rfl
  · exact pixelToYuv_eq_toYuv q fun k => px.getD k 0

/-- R244: every output but Gray8 has a path, and its pixel is no longer than the canonical one. -/
theorem stage3_exists (q : Quantiser) {out : ColorFormat} (hout : out ≠ .gray8) :
    ∃ path, cvtPath q (some (canonicalOf (some out))) false (some out) = some path := by
  cases out with
  | gray8 => exact absurd rfl hout
  | _ => exact ⟨_, rfl⟩

theorem bpp_le_bpp_canonicalOf (out : ColorFormat) : bpp out ≤ bpp (canonicalOf (some out)) := by
  cases out <;> decide

/-- DST after the commit of a converted image holds each pixel in its place. -/
theorem dstHolds_mapPixels (s : State) (plan : Plan) {f : Pixel → List Byte} {c : Nat} (hf : ∀ P, (f P).length = c)
    (b : Nat) {n p : Nat} (img : List Byte) (hp : p < n) :
    DstHolds (commitSuccess s plan (mapPixels b f n img)) (p * c) (f (pixelAt img b p)) := by
  refine dstHolds_commitSuccess s plan ?_ fun k hk => mapPixels_getD hf b img hp (hf _ ▸ hk)
  rw [mapPixels_length hf, hf, ← Nat.succ_mul]
  exact Nat.mul_le_mul_right c hp

/-! ## The whole pipeline (44_pipeline.md R245) -/

/-- The canonical image after stage 2 has the dimensions of stage 2. -/
theorem pipeStage2_length {p : Params} {o : Operands} {kind : InterpKind} {b : Nat} {b1 : List Byte}
    (hlen : b1.length = o.srcW.toNat * o.srcH.toNat * b) :
    (pipeStage2 p kind b o.srcW.toNat o.srcH.toNat o.argW.toNat o.argH.toNat b1).length =
      stage2Width o * stage2Height o * b := by
  unfold pipeStage2 stage2Width stage2Height
  split_ifs
  · exact resample_length p kind b b1 _ _ _ _
  · exact hlen

/-- A pipeline with a path, on a ready source whose canonical and resampled images fit, delivers the repacked pixels
of the image that stage 2 makes of the canonical pixels. -/
theorem pipe_delivers {ch : Byte} (hch1 : 1 ≤ ch.toNat) (hch4 : ch.toNat ≤ 4) {i : Instr} {kind : InterpKind}
    {out : ColorFormat} (hplan : ∀ p o, commandPlan i p o = pipePlan p o ch (some out) kind) (hgray : out ≠ .gray8)
    {s : State} (hno : ¬(ch = 1 ∧ out = .rgb565)) (hready : Ready s ch.toNat (srcW s * srcH s * canonicalBpp out))
    (hfit2 : fits s.params (stage2Width s.ops * stage2Height s.ops * canonicalBpp out) = true) :
    ∃ t b1, exec i s = .next t ∧
      Succeeds s t false (stage2Width s.ops) (stage2Height s.ops) (bpp out) s.ops.metaIn ∧
      b1.length = srcW s * srcH s * canonicalBpp out ∧
      (∀ p, p < srcW s * srcH s →
        pixelBytes b1 (canonicalBpp out) p = canonicalPixel s ch.toNat (out = .rgba8888) p) ∧
      ∀ p, p < stage2Width s.ops * stage2Height s.ops →
        DstHolds t (p * bpp out) (repacked s.params.q8 out
          (pixelBytes (pipeStage2 s.params kind (canonicalBpp out) (srcW s) (srcH s) (argW s) (argH s) b1)
            (canonicalBpp out) p)) := by
  obtain ⟨hshape, hwritten, hfit1⟩ := hready
  obtain ⟨f, hch⟩ := exists_formatOfChannels hch1 hch4
  obtain ⟨stage1, h1⟩ := stage1_exists s.params.q8 hch (some out)
  obtain ⟨stage3, h3⟩ := stage3_exists s.params.q8 hgray
  obtain ⟨hsrc1, hdst1⟩ := cvtPath_bpp h1
  obtain ⟨hsrc3, hdst3⟩ := cvtPath_bpp h3
  rw [formatOfChannels_bpp hch] at hsrc1
  rw [← bpp_canonicalOf] at hfit1 hfit2 ⊢
  have hpass : pipePlan s.params s.ops ch (some out) kind =
      .ok (pipelinePlan s.params s.ops kind (canonicalOf (some out)) stage1 stage3) := by
    have hscaled : ¬(argW s ≠ 0 ∧ argH s ≠ 0 ∧
        fits s.params (argW s * argH s * bpp (canonicalOf (some out))) = false) := by
      rintro ⟨hw, hh, hlong⟩
      rw [stage2Width, stage2Height, if_pos ⟨hw, hh⟩, if_pos ⟨hw, hh⟩] at hfit2
      exact Bool.false_ne_true (hlong.symm.trans hfit2)
    rw [pipePlan_spec hch h1, if_neg (by simp [hshape.fitsIn]), if_neg (by simpa using hno),
      if_neg (not_misshapen_of_shaped hshape), if_neg (by simp [hfit1]), if_neg hscaled, h3, Option.elim_some]
  have hfitOut : fits s.params (stage2Width s.ops * stage2Height s.ops * stage3.dstBpp) = true :=
    fits_mono hfit2 (Nat.mul_le_mul_left _ (hdst3 ▸ bpp_le_bpp_canonicalOf out))
  obtain ⟨img, hbytes, hexec, hsucceeds⟩ := exec_succeeds ((hplan _ _).trans hpass) hwritten hfitOut
  have hpixel1 : ∀ P, (stage1.pixel P).length = bpp (canonicalOf (some out)) :=
    fun P => ((cvtPath_sound h1).length P).trans hdst1
  have hpixel3 : ∀ P, (stage3.pixel P).length = bpp out := fun P => ((cvtPath_sound h3).length P).trans hdst3
  have hlen1 := mapPixels_length hpixel1 stage1.srcBpp (srcW s * srcH s) img
  refine ⟨_, _, hexec, hdst3 ▸ hsucceeds, hlen1, fun p hp => ?_, fun p hp => ?_⟩
  · rw [pixelBytes_mapPixels hpixel1 _ img hp, ← decide_canonicalOf,
      ← canonicalPixel_of_path hch (isCanonical_canonicalOf _) h1 s p, ← hsrc1]
    exact path_local h1 fun k hk => hbytes _ (hshape.length ▸ hsrc1 ▸ index_lt hp hk)
  · rw [← repacked_of_path h3 (pixelBytes_length (pipeStage2_length hlen1) hp)]
    have hsame := path_local h3 fun k hk => pixelBytes_getD
      (pipeStage2 s.params kind (bpp (canonicalOf (some out))) (srcW s) (srcH s) (argW s) (argH s)
        (mapPixels stage1.srcBpp stage1.pixel (srcW s * srcH s) img)) p (hsrc3 ▸ hk)
    rw [hsame]
    exact dstHolds_mapPixels s _ hpixel3 _ _ hp

/-- Settles O44: without both target dimensions stage 2 leaves the canonical image as it is. -/
theorem pipeWithoutResizeRepacksCanonicalPixels : Obligations.PipeWithoutResizeRepacksCanonicalPixels := by
  unfold Obligations.PipeWithoutResizeRepacksCanonicalPixels
  intro ch hch1 hch4 row hrow s hno hargs hready
  obtain ⟨hplan, hbpp, hgray⟩ := pipeRow_pipePlan hrow
  have hnot : ¬(argW s ≠ 0 ∧ argH s ≠ 0) := by tauto
  have hw : stage2Width s.ops = srcW s := if_neg hnot
  have hh : stage2Height s.ops = srcH s := if_neg hnot
  obtain ⟨t, b1, hexec, hsucceeds, -, hcanonical, hdst⟩ :=
    pipe_delivers hch1 hch4 hplan hgray hno hready (by
      rw [hw, hh]
      exact hready.fitsOut)
  rw [hw, hh, ← hbpp] at hsucceeds hdst
  refine ⟨t, hexec, hsucceeds, fun p hp => ?_⟩
  rw [← hcanonical p hp]
  simpa only [pipeStage2, if_neg hnot] using hdst p hp

/-- Settles O45: with both target dimensions stage 2 is `Resample` of the canonical image. -/
theorem pipeWithResizeRepacksTheResampledImage : Obligations.PipeWithResizeRepacksTheResampledImage := by
  unfold Obligations.PipeWithResizeRepacksTheResampledImage
  intro ch hch1 hch4 row hrow s hno hargW hargH b hready hfit
  obtain ⟨hplan, hbpp, hgray⟩ := pipeRow_pipePlan hrow
  have hboth : argW s ≠ 0 ∧ argH s ≠ 0 := ⟨hargW, hargH⟩
  have hw : stage2Width s.ops = argW s := if_pos hboth
  have hh : stage2Height s.ops = argH s := if_pos hboth
  obtain ⟨t, b1, hexec, hsucceeds, hlen, hcanonical, hdst⟩ :=
    pipe_delivers hch1 hch4 hplan hgray hno hready (by
      rw [hw, hh]
      exact hfit)
  rw [hw, hh, ← hbpp] at hsucceeds hdst
  refine ⟨t, b1, hexec, hsucceeds, hlen, hcanonical, fun p hp => ?_⟩
  simpa only [pipeStage2, if_pos hboth] using hdst p hp

end Sys2Proof.Proofs
end

section
/-!
The proofs of the law of the pipeline (spec/44_pipeline.md R248): PIPE against the host script of DISP, `mv`, RESIZE,
`mv` and CVT, one image handed from each command to the next.
-/
namespace Sys2Proof.Proofs
open Sys2Proof.Machine Sys2Proof.Claim

/-! ## An image in SRC, and the plan of a command word -/

/-- The source of `u` is the well-shaped image `img` of `w` by `h` pixels of `b` bytes. -/
structure HoldsImage (u : State) (img : List Byte) (w h b : Nat) : Prop where
  shaped : Shaped u b
  width : srcW u = w
  height : srcH u = h
  read : readRange u.src 0 (srcLen u) = some img

/-- The command word `word` runs the sound plan `plan` wherever the parameters are `p` and the operands `o`. -/
structure Plans (word : Word) (p : Params) (o : Operands) (plan : Plan) : Prop where
  sound : PlanSound p o plan
  exec_eq : ∀ v : State, v.params = p → v.ops = o → exec (decode word) v = finish v (.ok plan)

/-- What a conversion along `path` delivers (40_codec.md R120 step 6). -/
def conversionPlan (o : Operands) (path : Path) : Plan where
  diag := false
  outW := o.srcW.toNat
  outH := o.srcH.toNat
  outCh := path.dstBpp
  metadata := 0
  bytes := mapPixels path.srcBpp path.pixel (o.srcW.toNat * o.srcH.toNat)

section PlansOf
variable {u : State} {c out f : ColorFormat} {C O : Tag} {path : Path}

theorem plans_cvt (hC : formatOfTag C = some c) (hO : formatOfTag O = some out)
    (hpath : cvtPath u.params.q8 (some c) false (some out) = some path) (hshape : Shaped u (bpp c)) :
    Plans (assemble (cvtFields C 0 O)) u.params u.ops (conversionPlan u.ops path) := by
  have hplan : cvtPlan u.params u.ops (some c) false (some out) = .ok (conversionPlan u.ops path) :=
    cvtPlan_ok hpath hshape.fitsIn hshape.width hshape.height ((cvtPath_bpp hpath).1 ▸ hshape.length)
  refine ⟨(cvtPlan_sound hplan).1, fun v hp ho => ?_⟩
  rw [decode_assemble_cvtFields, exec_decodeCvt, hC, hO, ← hplan, ← hp, ← ho]
  rfl

theorem plans_disp {ch : Byte} (hch : formatOfChannels ch = some f) (hC : formatOfTag C = some c)
    (hc : isCanonical (some c) = true) (hpath : cvtPath u.params.q8 (some f) false (some c) = some path)
    (hshape : Shaped u ch.toNat) :
    Plans (assemble (dispFields ch C)) u.params u.ops (conversionPlan u.ops path) := by
  have hplan : cvtPlan u.params u.ops (some f) false (some c) = .ok (conversionPlan u.ops path) :=
    cvtPlan_ok hpath hshape.fitsIn hshape.width hshape.height
      ((cvtPath_bpp hpath).1.trans (formatOfChannels_bpp hch) ▸ hshape.length)
  refine ⟨(cvtPlan_sound hplan).1, fun v hp ho => ?_⟩
  rw [decode_assemble_dispFields, exec_decodeDisp, hC, ← hplan, ← dispPlan_eq_cvtPlan hch hc, ← hp, ← ho]
  rfl

theorem plans_resize {kind : InterpKind} (hC : formatOfTag C = some c) (hc : isCanonical (some c) = true)
    (hshape : Shaped u (bpp c)) (hw : argW u ≠ 0) (hh : argH u ≠ 0)
    (hfit : fits u.params (argW u * argH u * bpp c) = true) :
    Plans (assemble (resizeFields C kind)) u.params u.ops
      (resampledPlan u.params kind (bpp c) (srcW u) (srcH u) (argW u) (argH u)) := by
  have hdims : targetDims (srcW u) (srcH u) (argW u) (argH u) = (argW u, argH u) := by
    rw [targetDims, if_neg hw, if_neg hh]
  have hplan : resizePlan u.params u.ops (some c) kind =
      .ok (resampledPlan u.params kind (bpp c) (srcW u) (srcH u) (argW u) (argH u)) := by
    rw [resizePlan_scaled (prologue_of_shaped hc hshape) (.inl hw), hdims]
    have hwithin : ¬(2 ^ 32 ≤ argW u ∨ 2 ^ 32 ≤ argH u ∨ fits u.params (argW u * argH u * bpp c) = false) := by
      simpa only [hfit, Bool.true_eq_false, or_false, not_or, Nat.not_le] using
        And.intro u.ops.argW.isLt u.ops.argH.isLt
    exact (if_neg (not_or.2 ⟨hw, hh⟩)).trans (if_neg hwithin)
  refine ⟨resizePlan_sound hplan, fun v hp ho => ?_⟩
  rw [decode_assemble_resizeFields, exec_decodeResize, hC, ← hplan, ← hp, ← ho]
  rfl

end PlansOf

/-! ## Steps of the script -/

/-- `mv` of an output that fits SRC_LEN: the output becomes the source image. -/
theorem run_move {t : State} {rest : List HostAction} {out : List Byte} {w h b : Nat} (k : Nat)
    (hscript : t.script = .copyDstToSrc :: rest) (hsound : WindowSound t) (hdst : t.dst = memoryOfBytes 0 out)
    (hout : out.length = w * h * b) (hlen : t.res.outLen = w * h * b) (hw : t.res.outW.toNat = w)
    (hh : t.res.outH.toNat = h) (hw0 : w ≠ 0) (hh0 : h ≠ 0) (hlt : w * h * b < 2 ^ 32) :
    ∃ v, Sys2Proof.core.run (k + 1) t = Sys2Proof.core.run k v ∧ HoldsImage v out w h b ∧ v.script = rest ∧
      v.params = t.params ∧ v.ops.argW = t.ops.argW ∧ v.ops.argH = t.ops.argH := by
  obtain ⟨hwindow, hshape, hfits, hempty⟩ := hsound
  obtain ⟨src, hsrc, hmove⟩ :=
    hostMove_spec (s := { t with script := rest }) ⟨hwindow, hshape, hfits, hempty⟩ (hlen.trans_lt hlt)
  have hreg : (BitVec.ofNat 32 t.res.outLen).toNat = w * h * b :=
    (Nat.mod_eq_of_lt (hlen.trans_lt hlt)).trans hlen
  have hread : readRange src 0 (w * h * b) = some out := by
    rw [← hout, ← readRange_memoryOfBytes out]
    refine readRange_congr fun a ha => ?_
    rw [Nat.zero_add, hsrc, if_pos (ha.trans_eq (hout.trans hlen.symm)), hdst]
  refine ⟨_, run_cons k hscript hmove, ⟨⟨?_, ?_, ?_, ?_⟩, hw, hh, ?_⟩, rfl, rfl, rfl, rfl⟩
  · exact (congrArg (fits t.params) hreg).trans (hlen ▸ hfits)
  · exact fun h0 => hw0 (hw.symm.trans h0)
  · exact fun h0 => hh0 (hh.symm.trans h0)
  · exact hreg.trans (congrArg₂ (fun x y => x * y * b) hw hh).symm
  · exact (congrArg (readRange src 0) hreg).trans hread

section Steps
variable {u : State} {word : Word} {rest : List HostAction} {plan : Plan} {img : List Byte}
  (hplans : Plans word u.params u.ops plan) (hread : readRange u.src 0 (srcLen u) = some img)
  (hfit : fits u.params (plan.outW * plan.outH * plan.outCh) = true)
include hplans hread hfit

/-- The state after the command of the script's head. -/
theorem perform_goWord : perform (goWord word) { u with script := rest } =
    .next (commitSuccess { u with cmd := word, script := rest } plan (plan.bytes img)) :=
  (hplans.exec_eq { u with cmd := word, script := rest } rfl rfl).trans (finish_ok hfit hread)

/-- A command and `mv`: the command's output becomes the source image, and nothing else that the next command reads
changes. -/
theorem run_command_move (k : Nat) (hscript : u.script = goWord word :: .copyDstToSrc :: rest) (hw : plan.outW ≠ 0)
    (hh : plan.outH ≠ 0) (hlt : plan.outW * plan.outH * plan.outCh < 2 ^ 32) :
    ∃ v, Sys2Proof.core.run (k + 2) u = Sys2Proof.core.run k v ∧
      HoldsImage v (plan.bytes img) plan.outW plan.outH plan.outCh ∧ v.script = rest ∧ v.params = u.params ∧
      v.ops.argW = u.ops.argW ∧ v.ops.argH = u.ops.argH := by
  have hlen : (plan.bytes img).length = plan.outW * plan.outH * plan.outCh :=
    hplans.sound.length img (readRange_spec hread).1
  have hsucceeds := commitSuccess_succeeds { u with cmd := word, script := .copyDstToSrc :: rest } hplans.sound.width
    hplans.sound.height hplans.sound.channels hlen
  obtain ⟨v, hrun, hv⟩ := run_move k rfl (commitSuccess_windowSound hsucceeds hfit) rfl hlen hsucceeds.outLen
    hsucceeds.outW hsucceeds.outH hw hh hlt
  exact ⟨v, (run_cons (k + 1) hscript (perform_goWord hplans hread hfit)).trans hrun, hv⟩

/-- The last command of a script leaves its commit. -/
theorem run_last_command (hscript : u.script = [goWord word]) :
    Sys2Proof.core.run 1 u = .next (commitSuccess { u with cmd := word, script := [] } plan (plan.bytes img)) :=
  run_cons 0 hscript (perform_goWord hplans hread hfit)

end Steps

/-! ## The law (44_pipeline.md R248) -/

/-- What a pipeline that passes its checks has found. -/
structure PipePasses (p : Params) (o : Operands) (ch : Byte) (out : ColorFormat) (kind : InterpKind) (f : ColorFormat)
    (stage1 stage3 : Path) : Prop where
  source : formatOfChannels ch = some f
  path1 : cvtPath p.q8 (some f) false (some (canonicalOf (some out))) = some stage1
  path3 : cvtPath p.q8 (some (canonicalOf (some out))) false (some out) = some stage3
  fitsIn : fits p o.srcLen.toNat = true
  width : o.srcW.toNat ≠ 0
  height : o.srcH.toNat ≠ 0
  length : o.srcLen.toNat = o.srcW.toNat * o.srcH.toNat * ch.toNat
  fitsCanonical : fits p (o.srcW.toNat * o.srcH.toNat * bpp (canonicalOf (some out))) = true
  fitsResized : o.argW.toNat ≠ 0 → o.argH.toNat ≠ 0 →
    fits p (o.argW.toNat * o.argH.toNat * bpp (canonicalOf (some out))) = true

theorem pipePlan_ok_cases {p : Params} {o : Operands} {ch : Byte} {out : ColorFormat} {kind : InterpKind} {plan : Plan}
    (h : pipePlan p o ch (some out) kind = .ok plan) :
    ∃ f stage1 stage3, PipePasses p o ch out kind f stage1 stage3 ∧
      plan = pipelinePlan p o kind (canonicalOf (some out)) stage1 stage3 := by
  cases hfit : fits p o.srcLen.toNat with
  | false => cases (pipePlan_source_too_long hfit).symm.trans h
  | true =>
    cases hch : formatOfChannels ch with
    | none => cases (pipePlan_unsupportedChannelCount hfit hch).symm.trans h
    | some f =>
      obtain ⟨stage1, h1⟩ := stage1_exists p.q8 hch (some out)
      rw [pipePlan_spec hch h1] at h
      split_ifs at h with hlong hno hshape hcanon hresized
      cases h3 : cvtPath p.q8 (some (canonicalOf (some out))) false (some out) with
      | none =>
        rw [h3] at h
        cases h
      | some stage3 =>
        rw [h3] at h
        obtain ⟨hw, hh, hlen⟩ : o.srcW.toNat ≠ 0 ∧ o.srcH.toNat ≠ 0 ∧
            o.srcLen.toNat = o.srcW.toNat * o.srcH.toNat * ch.toNat := by tauto
        refine ⟨f, stage1, stage3, ⟨hch, h1, h3, hfit, hw, hh, hlen, by simpa using hcanon, fun hargW hargH => ?_⟩,
          (Except.ok.inj h).symm⟩
        by_contra hlong'
        exact hresized ⟨hargW, hargH, by simpa using hlong'⟩

/-- A pipeline that succeeds has committed its plan on the source image. -/
theorem exec_pipe_success {i : Instr} {s t : State} {ch : Byte} {out : ColorFormat} {kind : InterpKind}
    (hplan : ∀ p o, commandPlan i p o = pipePlan p o ch (some out) kind) (hexec : exec i s = .next t)
    (hstatus : statusErr t.res.status = 0) :
    ∃ f stage1 stage3 img, PipePasses s.params s.ops ch out kind f stage1 stage3 ∧
      readRange s.src 0 (srcLen s) = some img ∧
      fits s.params (stage2Width s.ops * stage2Height s.ops * stage3.dstBpp) = true ∧
      t = commitSuccess s (pipelinePlan s.params s.ops kind (canonicalOf (some out)) stage1 stage3)
        ((pipelinePlan s.params s.ops kind (canonicalOf (some out)) stage1 stage3).bytes img) := by
  rcases exec_next_cases hexec with ⟨e, rfl⟩ | ⟨plan, img, hok, hread, hfit, ht, -⟩
  · exact absurd ((statusErr_statusOfError e).symm.trans hstatus) (errCode_ne_zero e)
  · obtain ⟨f, stage1, stage3, hpasses, rfl⟩ := pipePlan_ok_cases ((hplan _ _).symm.trans hok)
    exact ⟨f, stage1, stage3, img, hpasses, hread, hfit, ht⟩

section Law
variable {s : State} {ch : Byte} {out : ColorFormat} {kind : InterpKind} {f : ColorFormat} {stage1 stage3 : Path}
  {img : List Byte} {C O : Tag} (hpasses : PipePasses s.params s.ops ch out kind f stage1 stage3)
  (hC : formatOfTag C = some (canonicalOf (some out)))
include hpasses hC

/-- DISP and `mv` leave the canonical image of stage 1 in SRC. -/
theorem run_dispatch_move (hread : readRange s.src 0 (srcLen s) = some img)
    (hlt : srcW s * srcH s * bpp (canonicalOf (some out)) < 2 ^ 32) (k : Nat) (rest : List HostAction) :
    ∃ v, Sys2Proof.core.run (k + 2)
        { s with script := goWord (assemble (dispFields ch C)) :: .copyDstToSrc :: rest } = Sys2Proof.core.run k v ∧
      HoldsImage v (mapPixels stage1.srcBpp stage1.pixel (srcW s * srcH s) img) (srcW s) (srcH s)
        (bpp (canonicalOf (some out))) ∧
      v.script = rest ∧ v.params = s.params ∧ v.ops.argW = s.ops.argW ∧ v.ops.argH = s.ops.argH := by
  obtain ⟨hch, h1, -, hfitIn, hw, hh, hlen, hfit1, -⟩ := hpasses
  have hdst := (cvtPath_bpp h1).2
  rw [← hdst] at hfit1 hlt ⊢
  exact run_command_move (u := { s with script := goWord (assemble (dispFields ch C)) :: .copyDstToSrc :: rest })
    (plan := conversionPlan s.ops stage1)
    (plans_disp hch hC (isCanonical_canonicalOf _) h1 ⟨hfitIn, hw, hh, hlen⟩) hread hfit1 k rfl hw hh hlt

/-- CVT of the image after stage 2 commits what the pipeline commits. -/
theorem run_convert_last {u : State} {img2 : List Byte} (hO : formatOfTag O = some out)
    (himg : HoldsImage u img2 (stage2Width s.ops) (stage2Height s.ops) (bpp (canonicalOf (some out))))
    (hscript : u.script = [goWord (assemble (cvtFields C 0 O))]) (hparams : u.params = s.params)
    (hfit : fits s.params (stage2Width s.ops * stage2Height s.ops * stage3.dstBpp) = true)
    (hstage2 : pipeStage2 s.params kind (bpp (canonicalOf (some out))) (srcW s) (srcH s) (argW s) (argH s)
      (mapPixels stage1.srcBpp stage1.pixel (srcW s * srcH s) img) = img2) :
    ∃ v, Sys2Proof.core.run 1 u = .next v ∧
      let t := commitSuccess s (pipelinePlan s.params s.ops kind (canonicalOf (some out)) stage1 stage3)
        ((pipelinePlan s.params s.ops kind (canonicalOf (some out)) stage1 stage3).bytes img)
      v.dst = t.dst ∧ v.res.outW = t.res.outW ∧ v.res.outH = t.res.outH ∧ v.res.outCh = t.res.outCh ∧
        v.res.outLen = t.res.outLen ∧ v.res.status = t.res.status := by
  obtain ⟨hshape, (hw : u.ops.srcW.toNat = _), (hh : u.ops.srcH.toNat = _), hread⟩ := himg
  have h3 := hpasses.path3
  have hbytes : (conversionPlan u.ops stage3).bytes img2 =
      (pipelinePlan s.params s.ops kind (canonicalOf (some out)) stage1 stage3).bytes img := by
    dsimp only [conversionPlan, pipelinePlan]
    rw [hstage2, hw, hh, (cvtPath_bpp h3).1]
  refine ⟨_, run_last_command (plans_cvt hC hO (hparams ▸ h3) hshape) hread ?_ hscript, ?_⟩
  · dsimp only [conversionPlan]
    rw [hw, hh, hparams]
    exact hfit
  · rw [hbytes]
    exact ⟨rfl, congrArg (BitVec.ofNat 32) hw, congrArg (BitVec.ofNat 32) hh, rfl, rfl, rfl⟩

end Law

/-- The PIPE rows of the law, with the tags of the canonical format and of the output, and the kind. -/
def lawRows (ch : Byte) : List (Instr × Tag × Tag × InterpKind) :=
  [(.pipeRgb565Nn ch, 2, 1, .nearest), (.pipeRgb888Nn ch, 2, 2, .nearest), (.pipeRgba8888Nn ch, 3, 3, .nearest),
   (.pipeYuv888Nn ch, 2, 4, .nearest), (.pipeRgb565Bl ch, 2, 1, .bilinear), (.pipeRgb888Bl ch, 2, 2, .bilinear),
   (.pipeRgba8888Bl ch, 3, 3, .bilinear), (.pipeYuv888Bl ch, 2, 4, .bilinear)]

theorem lawRow_pipePlan {ch : Byte} {row : Instr × Tag × Tag × InterpKind} (h : row ∈ lawRows ch) :
    ∃ out, (∀ p o, commandPlan row.1 p o = pipePlan p o ch (some out) row.2.2.2) ∧
      formatOfTag row.2.1 = some (canonicalOf (some out)) ∧ formatOfTag row.2.2.1 = some out ∧
      (if row.2.1 = 3 then 4 else 3) = bpp (canonicalOf (some out)) := by
  fin_cases h
  · exact ⟨.rgb565, fun _ _ => rfl, rfl, rfl, rfl⟩
  · exact ⟨.rgb888, fun _ _ => rfl, rfl, rfl, rfl⟩
  · exact ⟨.rgba8888, fun _ _ => rfl, rfl, rfl, rfl⟩
  · exact ⟨.yuv888, fun _ _ => rfl, rfl, rfl, rfl⟩
  · exact ⟨.rgb565, fun _ _ => rfl, rfl, rfl, rfl⟩
  · exact ⟨.rgb888, fun _ _ => rfl, rfl, rfl, rfl⟩
  · exact ⟨.rgba8888, fun _ _ => rfl, rfl, rfl, rfl⟩
  · exact ⟨.yuv888, fun _ _ => rfl, rfl, rfl, rfl⟩

/-- Settles O48: DISP and `mv` leave the image of stage 1 in SRC, which CVT repacks as stage 3 does. -/
theorem pipelineEqualsDispatchMoveConvert : Obligations.PipelineEqualsDispatchMoveConvert := by
  unfold Obligations.PipelineEqualsDispatchMoveConvert
  intro ch s t _ row hrow hargs hlt hexec hstatus
  obtain ⟨x, hx, rfl⟩ := List.mem_map.1
    (show row ∈ (lawRows ch).map fun x => (x.1, x.2.1, x.2.2.1) from hrow)
  obtain ⟨out, hplan, hC, hO, hbpp⟩ := lawRow_pipePlan hx
  obtain ⟨f, stage1, stage3, img, hpasses, hread, hfit, rfl⟩ := exec_pipe_success hplan hexec hstatus
  rw [hbpp] at hlt
  obtain ⟨v, hrun, himg, hscript, hparams, -⟩ :=
    run_dispatch_move hpasses hC hread hlt 1 [goWord (assemble (cvtFields x.2.1 0 x.2.2.1))]
  have hnot : ¬(argW s ≠ 0 ∧ argH s ≠ 0) := by tauto
  have hw : stage2Width s.ops = srcW s := if_neg hnot
  have hh : stage2Height s.ops = srcH s := if_neg hnot
  rw [← hw, ← hh] at himg
  obtain ⟨u, hlast, hsame⟩ := run_convert_last (img := img) hpasses hC hO himg hscript hparams hfit (by
    rw [hw, hh]
    exact if_neg hnot)
  exact ⟨u, hrun.trans hlast, hsame⟩

/-- RESIZE and `mv` leave the resampled image in SRC. -/
theorem run_resize_move {u : State} {c : ColorFormat} {C : Tag} {kind : InterpKind} {img : List Byte} {w h : Nat}
    (hC : formatOfTag C = some c) (hc : isCanonical (some c) = true) (himg : HoldsImage u img w h (bpp c))
    (hargW : argW u ≠ 0) (hargH : argH u ≠ 0) (hfit : fits u.params (argW u * argH u * bpp c) = true)
    (hlt : argW u * argH u * bpp c < 2 ^ 32) (k : Nat) {rest : List HostAction}
    (hscript : u.script = goWord (assemble (resizeFields C kind)) :: .copyDstToSrc :: rest) :
    ∃ v, Sys2Proof.core.run (k + 2) u = Sys2Proof.core.run k v ∧
      HoldsImage v (resample u.params kind (bpp c) img w h (argW u) (argH u)) (argW u) (argH u) (bpp c) ∧
      v.script = rest ∧ v.params = u.params ∧ v.ops.argW = u.ops.argW ∧ v.ops.argH = u.ops.argH := by
  obtain ⟨hshape, rfl, rfl, hread⟩ := himg
  exact run_command_move (plans_resize hC hc hshape hargW hargH hfit) hread hfit k hscript hargW hargH hlt

/-- Settles O49: after DISP and `mv`, RESIZE and `mv` leave the image of stage 2 in SRC, which CVT repacks as stage 3
does. -/
theorem pipelineEqualsDispatchResizeConvert : Obligations.PipelineEqualsDispatchResizeConvert := by
  unfold Obligations.PipelineEqualsDispatchResizeConvert
  intro ch s t _ row hrow hargW hargH hlt1 hlt2 hexec hstatus
  obtain ⟨out, hplan, hC, hO, hbpp⟩ := lawRow_pipePlan (show row ∈ lawRows ch from hrow)
  obtain ⟨f, stage1, stage3, img, hpasses, hread, hfit, rfl⟩ := exec_pipe_success hplan hexec hstatus
  rw [hbpp] at hlt1 hlt2
  obtain ⟨v, hrun1, himg1, hscript1, hparams1, haW, haH⟩ := run_dispatch_move hpasses hC hread hlt1 3
    [goWord (assemble (resizeFields row.2.1 row.2.2.2)), .copyDstToSrc,
      goWord (assemble (cvtFields row.2.1 0 row.2.2.1))]
  have hvW : argW v = argW s := congrArg BitVec.toNat haW
  have hvH : argH v = argH s := congrArg BitVec.toNat haH
  obtain ⟨u, hrun2, himg2, hscript2, hparams2, -⟩ := run_resize_move hC (isCanonical_canonicalOf _) himg1
    (hvW ▸ hargW) (hvH ▸ hargH) (by
      rw [hvW, hvH, hparams1]
      exact hpasses.fitsResized hargW hargH) (hvW ▸ hvH ▸ hlt2) 1 hscript1
  have hboth : argW s ≠ 0 ∧ argH s ≠ 0 := ⟨hargW, hargH⟩
  have hw : stage2Width s.ops = argW v := (if_pos hboth).trans hvW.symm
  have hh : stage2Height s.ops = argH v := (if_pos hboth).trans hvH.symm
  rw [← hw, ← hh, hparams1] at himg2
  obtain ⟨r, hlast, hsame⟩ := run_convert_last (img := img) hpasses hC hO himg2 hscript2 (hparams2.trans hparams1) hfit
    (by
      rw [hw, hh, hvW, hvH]
      exact if_pos hboth)
  exact ⟨r, hrun1.trans (hrun2.trans hlast), hsame⟩

end Sys2Proof.Proofs
end
